-- ==== Sys2Proof/Word.lean ====
section
/-! DEFINITION. Word.lean: the word types of FRAMER (00_scope.md rules R11, R12; 30_encoding.md rule R80). Each is a
plain bit vector, so every fixed-width rule ("wrapping", "modulo 2^32") is bit-vector arithmetic. -/

namespace Sys2Proof

/-- A `u8`: a wire byte, a function code, a register index. -/
abbrev Byte := BitVec 8

/-- A `u16`: a register address, a count, a register value, a CRC. -/
abbrev Half := BitVec 16

/-- A `u32`: a control or status register (10_state.md rule R31). -/
abbrev Word32 := BitVec 32

/-- A 48-bit host command word (30_encoding.md rule R80); bit 47 is the most significant. -/
abbrev Command := BitVec 48

/-- A `u4`: an error code or a detail code (10_state.md rule R22). -/
abbrev Nibble := BitVec 4

end Sys2Proof
end

