-- ==== Sys2Proof/Config.lean ====
section
/-! DEFINITION. Config.lean: what is fixed when the block is built and never changes while it runs (00_scope.md rules R7 to
R10): the protocol constants of the source, one record `protocol`; and the parameters the source leaves open, the record
`Config`, which carries the bounds of rule R9 with it, so that a configuration that breaks them has no instance. The rules
leave no value undefined, so the file declares no free value. -/

namespace Sys2Proof

/-- The fixed protocol constants of 00_scope.md rule R7, a record so that a correction of a literal of the source touches no
rule (93_implementation_defined.md item I12). -/
structure Protocol where
  /-- `H1`, four bytes on the wire. -/
  h1 : List Byte
  /-- `H2`, two bytes on the wire. -/
  h2 : List Byte
  /-- `HDR_LEN`. -/
  hdrLen : Nat
  /-- `LEN_BIAS`. -/
  lenBias : Nat
  /-- `SLAVE_ADDR`. -/
  slaveAddr : Byte
  /-- `TX_SERIAL`, ten ASCII bytes. -/
  txSerial : List Byte
  /-- `FC_READ_HOLDING`. -/
  fcReadHolding : Byte
  /-- `FC_READ_INPUT`. -/
  fcReadInput : Byte
  /-- `FC_WRITE_SINGLE`. -/
  fcWriteSingle : Byte
deriving DecidableEq, Repr

/-- The values of 00_scope.md rule R7. PRESUMED: the ASCII codes of `TX_SERIAL` = "AB1234G567" are general knowledge of the
spec's writer (item G1); log entry 11. -/
def protocol : Protocol where
  h1 := [0x59, 0x59, 0x00, 0x01]
  h2 := [0x01, 0x02]
  hdrLen := 8
  lenBias := 2
  slaveAddr := 0x32
  txSerial := [0x41, 0x42, 0x31, 0x32, 0x33, 0x34, 0x47, 0x35, 0x36, 0x37]
  fcReadHolding := 0x03
  fcReadInput := 0x04
  fcWriteSingle := 0x06

/-- `MIN_FRAME_LEN` of 00_scope.md rule R10: the frame with an empty data section. -/
def minFrameLen : Nat := protocol.hdrLen + 10 + 1 + 1 + 1 + 2

/-- `REQ_FRAME_LEN` of 00_scope.md rule R10: eight header bytes and the 19-byte inner frame. -/
def reqFrameLen : Nat := protocol.hdrLen + (10 + 1 + 1 + 1 + 4 + 2)

/-- `CRC_WIRE_ORDER`: which byte of the CRC field is sent first (20_memory.md rule R51). -/
inductive ByteOrder where
  /-- High byte first. -/
  | be
  /-- Low byte first. -/
  | le
deriving DecidableEq, Repr

/-- The open parameters of 00_scope.md rule R8, each field's default being the spec's own (PRESUMED where the spec says "from
general knowledge": the CRC set and `MAX_COUNT`; log entries 9 and 10). `bounds` is rule R9: a record that breaks it cannot be
built ("the model has no instance for it"). -/
structure Config where
  /-- `TX_PAD`: the `pad` byte of a request. -/
  txPad : Byte := 0x00
  /-- `CRC_POLY`, normal form. -/
  crcPoly : Half := 0x8005
  /-- `CRC_INIT`. -/
  crcInit : Half := 0xFFFF
  /-- `CRC_REFIN`: bytes enter least significant bit first. -/
  crcRefIn : Bool := true
  /-- `CRC_REFOUT`: the final register is bit-reversed. -/
  crcRefOut : Bool := true
  /-- `CRC_XOROUT`. -/
  crcXorOut : Half := 0x0000
  /-- `CRC_WIRE_ORDER`. -/
  crcWireOrder : ByteOrder := .be
  /-- `MAX_COUNT`: the largest register count of one read request. -/
  maxCount : Nat := 125
  /-- `MAX_FRAME_LEN`: the largest total frame length the decoder accepts. -/
  maxFrameLen : Nat := 277
  /-- `BUF_CAP`: the ByteBuffer's capacity in bytes. -/
  bufCap : Nat := 1024
  /-- The bounds of 00_scope.md rule R9. -/
  bounds : 1 ≤ maxCount ∧ maxCount ≤ 32767 ∧ 27 ≤ maxFrameLen ∧ maxFrameLen ≤ bufCap ∧ bufCap ≤ 65535 := by decide
deriving DecidableEq, Repr

/-- Every parameter at the default of 00_scope.md rule R8. -/
def Config.default : Config := {}

end Sys2Proof
end

