-- ==== Sys2Proof/Syntax.lean ====
section
/-! DEFINITION. Syntax.lean: what the block executes, one constructor per row of spec/opcode_table.json: the six commands of
30_encoding.md rule R81, the ILLEGAL space of rule R83, the three request frames of rule R72 and the three received frames of
rules R71, R74, R75. -/

namespace Sys2Proof

/-- The three function codes of 30_encoding.md rule R77, the opcode map of the wire format. -/
inductive FuncCode where
  /-- `0x03`, read holding registers. -/
  | readHolding
  /-- `0x04`, read input registers. -/
  | readInput
  /-- `0x06`, write single register. -/
  | writeSingle
deriving DecidableEq, Repr

/-- The operands of a received frame: the fields of 30_encoding.md rule R71 that its header and function code do not fix. The
`crc` field holds the value `rcrc` reads (40_crc16.md rule R103). -/
structure RxFrame where
  /-- Frame bytes 8 to 17, raw (43_decoder.md rule R192). -/
  serial : List Byte
  /-- Frame byte 18, raw. -/
  pad : Byte
  /-- The data section, frame bytes 21 to `T - 3`. -/
  data : List Byte
  /-- The received CRC field. -/
  crc : Half
deriving DecidableEq, Repr

/-- Everything FRAMER executes. The first six are the host's commands; `illegal` is a word that spells none of them; the `tx`
rows are the requests ENC builds, issued by the command ENCODE with that function code (41_encoder.md rules R126 to R128); the
`rx` rows are the frames DEC decodes, run by the command TRY_EXTRACT when such a frame stands at the head of the buffer
(43_decoder.md rules R180 to R182). -/
inductive Instr where
  /-- `ENCODE FUNC, BASE, ARG` (41_encoder.md rule R120). -/
  | encode (func : Byte) (base arg : Half)
  /-- `FEED BYTE` (42_header_splitter.md rule R140). -/
  | feed (byte : Byte)
  /-- `TRY_EXTRACT` (43_decoder.md rule R170). -/
  | tryExtract
  /-- `SESSION_RESET` (44_control.md rule R213). -/
  | sessionReset
  /-- `REG_READ IDX` (44_control.md rule R210). -/
  | regRead (idx : Byte)
  /-- `REG_WRITE IDX, VALUE` (44_control.md rule R211). -/
  | regWrite (idx : Byte) (value : Word32)
  /-- An ill-formed command word (44_control.md rule R214). -/
  | illegal (word : Command)
  /-- The read-holding-registers request (41_encoder.md rule R126). -/
  | txReadHolding (base count : Half)
  /-- The read-input-registers request (41_encoder.md rule R127). -/
  | txReadInput (base count : Half)
  /-- The write-single-register request (41_encoder.md rule R128). -/
  | txWriteSingle (reg value : Half)
  /-- A received read-holding-registers frame (43_decoder.md rule R180). -/
  | rxReadHolding (frame : RxFrame)
  /-- A received read-input-registers frame (43_decoder.md rule R181). -/
  | rxReadInput (frame : RxFrame)
  /-- A received write-single-register frame (43_decoder.md rule R182). -/
  | rxWriteSingle (frame : RxFrame)
deriving DecidableEq, Repr

/-- An encoded instruction: 30_encoding.md has two kinds of encoding, the command word of its Part B and the wire frame of its
Part A, which stands on either side of the block. -/
inductive Encoded where
  /-- A 48-bit word at the host's command port (rule R80). -/
  | command (w : Command)
  /-- The bytes of a request, on the transmit side (rule R72). -/
  | request (bytes : List Byte)
  /-- The bytes of a frame, on the receive side (rule R71). -/
  | received (bytes : List Byte)
deriving DecidableEq, Repr

/-- Why bytes are no frame of the opcode table, by name. -/
inductive Reject where
  /-- A request is not 27 bytes long (41_encoder.md rule R122). -/
  | requestLength
  /-- A request whose constant bytes, 0 to 19, differ (30_encoding.md rule R72). -/
  | requestConstants
  /-- A request whose CRC field is not the CRC of its operands (40_crc16.md rule R104). -/
  | requestCrc
  /-- Fewer than 8 received bytes (42_header_splitter.md rule R143). -/
  | short
  /-- `h1` is not its sentinel. -/
  | badH1
  /-- `h2` is not its sentinel. -/
  | badH2
  /-- `T > MAX_FRAME_LEN` (rule R145). -/
  | tooLong
  /-- `T < 23` (rule R145). -/
  | tooShort
  /-- The bytes are not exactly the `T` the header declares. -/
  | lengthMismatch
  /-- The slave address is not `SLAVE_ADDR` (43_decoder.md rule R176). -/
  | addrMismatch
  /-- The function code is none of the three (rule R177). -/
  | badFunc
deriving DecidableEq, Repr

end Sys2Proof
end

