-- ==== Sys2Proof/Machine/Operands.lean ====
section
/-! DEFINITION. Operands.lean: byte sequences and how operands are read from and written to them (00_scope.md rules R11, R12;
20_memory.md rules R50 to R52; 30_encoding.md rule R79; 40_crc16.md rule R103). Every operand is unsigned; every 16-bit field
is big-endian but for the CRC field, whose order is `CRC_WIRE_ORDER`. -/

namespace Sys2Proof.Machine

/-- `B[i..j)`: bytes `i` to `j - 1` (00_scope.md rule R12). -/
def slice (B : List Byte) (i j : Nat) : List Byte := (B.drop i).take (j - i)

/-- `B[i]`. DESIGN CHOICE (safe): an index past the end, which no rule reads, gives 0; log entry 16. -/
def byteAt (B : List Byte) (i : Nat) : Byte := B.getD i 0

/-- `be16(B, i) = B[i] * 256 + B[i+1]` (00_scope.md rule R12). -/
def be16 (B : List Byte) (i : Nat) : Half := byteAt B i ++ byteAt B (i + 1)

/-- The high byte of a `u16`. -/
def hiByte (v : Half) : Byte := v.extractLsb' 8 8

/-- The low byte of a `u16`. -/
def loByte (v : Half) : Byte := v.extractLsb' 0 8

/-- `w16(v)`: the two-byte big-endian sequence (00_scope.md rule R12). -/
def w16 (v : Half) : List Byte := [hiByte v, loByte v]

/-- `wcrc(v)`: the CRC field in `CRC_WIRE_ORDER` (40_crc16.md rule R103). -/
def wcrc (order : ByteOrder) (v : Half) : List Byte :=
  match order with
  | .be => [hiByte v, loByte v]
  | .le => [loByte v, hiByte v]

/-- `rcrc(F, i)`: the CRC field at index `i`, read in `CRC_WIRE_ORDER` (40_crc16.md rule R103). -/
def rcrc (order : ByteOrder) (F : List Byte) (i : Nat) : Half :=
  match order with
  | .be => byteAt F i ++ byteAt F (i + 1)
  | .le => byteAt F (i + 1) ++ byteAt F i

/-- The 16-bit register values of a data section, `[be16(B, 2k) for k in ..]` (43_decoder.md rule R180). An odd last byte, which
no well-formed data section has, is dropped. -/
def words16 : List Byte → List Half
  | hi :: lo :: rest => (hi ++ lo) :: words16 rest
  | _ => []

/-- The wire value of a function code (30_encoding.md rule R77). -/
def funcByte : FuncCode → Byte
  | .readHolding => protocol.fcReadHolding
  | .readInput => protocol.fcReadInput
  | .writeSingle => protocol.fcWriteSingle

/-- The function code a byte spells; the other 253 values are illegal (30_encoding.md rule R77). -/
def funcOfByte (b : Byte) : Option FuncCode :=
  if b = protocol.fcReadHolding then some .readHolding
  else if b = protocol.fcReadInput then some .readInput
  else if b = protocol.fcWriteSingle then some .writeSingle
  else none

/-- The fields of a received frame `F` of length `T` that its decoding hands on: `serial = F[8..18)`, `pad = F[18]`,
`data = F[21..T-2)`, `crc = rcrc(F, T-2)` (30_encoding.md rule R71, 43_decoder.md rule R184). -/
def rxFields (order : ByteOrder) (F : List Byte) : RxFrame where
  serial := slice F 8 18
  pad := byteAt F 18
  data := slice F 21 (F.length - 2)
  crc := rcrc order F (F.length - 2)

end Sys2Proof.Machine
end

