-- ==== Sys2Proof/Machine/Header.lean ====
section
/-! DEFINITION. Header.lean: the HP sub-block, the header parser (42_header_splitter.md rules R143 to R146), and the header a
frame is sent with (30_encoding.md rules R70, R76). -/

namespace Sys2Proof.Machine

/-- How HP classifies the head of the buffer (42_header_splitter.md rule R143). -/
inductive HeaderClass where
  /-- Fewer than 8 bytes. -/
  | short
  /-- `BAD(0)`: `h1` differs from its sentinel, whatever `h2` holds. -/
  | badH1
  /-- `BAD(1)`: `h1` matches and `h2` differs. -/
  | badH2
  /-- `T > MAX_FRAME_LEN`. -/
  | tooLong
  /-- `T < MIN_FRAME_LEN`. -/
  | tooShort
  /-- A good header whose frame of `total` bytes is not yet all there. -/
  | incomplete (total : Nat)
  /-- A good header whose frame of `total` bytes is all there. -/
  | complete (total : Nat)
deriving DecidableEq, Repr

/-- `T`, the total frame length, from the `len` field at bytes 4 and 5: `be16 - LEN_BIAS + HDR_LEN` on natural numbers, no
wrap (42_header_splitter.md rule R144). The sum is taken before the difference, so that `len = 0` gives 6. -/
def totalLength (B : List Byte) : Nat := (be16 B 4).toNat + protocol.hdrLen - protocol.lenBias

/-- HP (42_header_splitter.md rule R143). -/
def headerParse (cfg : Config) (B : List Byte) : HeaderClass :=
  if B.length < protocol.hdrLen then .short
  else if slice B 0 4 ≠ protocol.h1 then .badH1
  else if slice B 6 8 ≠ protocol.h2 then .badH2
  else if totalLength B > cfg.maxFrameLen then .tooLong
  else if totalLength B < minFrameLen then .tooShort
  else if B.length < totalLength B then .incomplete (totalLength B)
  else .complete (totalLength B)

/-- `BAD(_)`: the classes that the sentinel search discards a byte on. -/
def HeaderClass.isBad : HeaderClass → Bool
  | .badH1 => true
  | .badH2 => true
  | _ => false

/-- A frame around an inner frame: `H1 ++ w16(len(inner) + LEN_BIAS) ++ H2 ++ inner` (30_encoding.md rules R70, R76). -/
def frameOf (inner : List Byte) : List Byte :=
  protocol.h1 ++ w16 (BitVec.ofNat 16 (inner.length + protocol.lenBias)) ++ protocol.h2 ++ inner

end Sys2Proof.Machine
end

