-- ==== Sys2Proof/Machine/State.lean ====
section
/-! DEFINITION. State.lean: the state of one FRAMER instance (10_state.md rule R22), the records it hands out (rules R33, R35;
30_encoding.md rule R84), and the reset state (rule R38). Beside the nine elements of rule R22 the structure has three fields of
the model's own, which the fixed shape of Host.Core asks for: the configuration, the command port and the host's record of the
responses (log entries 1 to 3). -/

namespace Sys2Proof.Machine

/-- The record TRY_EXTRACT returns with `FRAME` (10_state.md rule R33). -/
structure DecodedFrame where
  /-- The function code, one of `0x03`, `0x04`, `0x06`. -/
  func : Byte
  /-- The base register; none only for a read under `VALUES_ONLY`. -/
  base : Option Half
  /-- The register count, or the written value. -/
  arg : Half
  /-- The register values of a read; empty for a write. -/
  regs : List Half
  /-- The raw data section. -/
  data : List Byte
  /-- The raw serial. -/
  serial : List Byte
  /-- The raw pad byte. -/
  pad : Byte
  /-- The received CRC field. -/
  crcRx : Half
  /-- The CRC the decoder computed. -/
  crcCalc : Half
  /-- Whether the two are equal. -/
  crcOk : Bool
deriving DecidableEq, Repr

/-- The decode-time errors, one per line of 60_exceptions.md rules R230 and R231 that TRY_EXTRACT raises. -/
inductive FrameError where
  /-- `BadHeader`, detail 0. -/
  | badH1
  /-- `BadHeader`, detail 1. -/
  | badH2
  /-- `LengthOverflow`. -/
  | lengthOverflow
  /-- `UnknownFunction`, detail 0. -/
  | badFunc
  /-- `UnknownFunction`, detail 1. -/
  | addrMismatch
  /-- `ChecksumMismatch`. -/
  | checksumMismatch
  /-- `MalformedFrame`, detail 0. -/
  | tooShort
  /-- `MalformedFrame`, detail 1. -/
  | badLayout
deriving DecidableEq, Repr

/-- The details of `InvalidRequest` (60_exceptions.md rule R231), which ENCODE answers and nothing latches. -/
inductive RequestError where
  /-- Detail 0. -/
  | badFunc
  /-- Detail 1. -/
  | zeroCount
  /-- Detail 2. -/
  | countRange
  /-- Detail 3. -/
  | addrRange
deriving DecidableEq, Repr

/-- The typed responses of 30_encoding.md rule R84. -/
inductive Response where
  /-- `OK(frame)`, of ENCODE. -/
  | ok (frame : List Byte)
  /-- `INVALID_REQUEST(detail)`, of ENCODE. -/
  | invalidRequest (detail : Nibble)
  /-- `ACK`, of FEED, SESSION_RESET and REG_WRITE. -/
  | ack
  /-- `FULL`, of FEED. -/
  | full
  /-- `NEED_MORE`, of TRY_EXTRACT. -/
  | needMore
  /-- `FRAME(DecodedFrame)`, of TRY_EXTRACT. -/
  | frame (df : DecodedFrame)
  /-- `ERROR(code, detail)`, of TRY_EXTRACT. -/
  | error (code detail : Nibble)
  /-- `VALUE(u32)`, of REG_READ. -/
  | value (v : Word32)
  /-- `ILLEGAL`, of REG_READ, REG_WRITE and every ill-formed word. -/
  | illegal
deriving DecidableEq, Repr

/-- What reaches the block from outside: a command word of the host (00_scope.md rule R14), or a power-on reset
(70_reset_and_hazards.md rule R260; log entry 4). -/
inductive Input where
  /-- The host issues a command word. -/
  | command (w : Command)
  /-- Power-on reset is applied. -/
  | powerOnReset
deriving DecidableEq, Repr

/-- Why the machine could stop with a fault: never. The block answers every command and none can trap (44_control.md rule
R216, 60_exceptions.md rule R230: its errors are responses), so the type has no constructor (log entry 13). -/
inductive Fault where
deriving DecidableEq, Repr

/-- Why the machine could refuse an instruction. -/
inductive Refusal where
  /-- An arm of `exec` that has no meaning yet, raised by `exec` alone (safe). No arm is left without one, so nothing raises it. -/
  | notModelled (mnemonic : String)
deriving DecidableEq, Repr

/-- The machine. -/
structure State where
  /-- The model's own: the configuration this instance was built with, which no step changes. It is configuration, not state
  (10_state.md rule R22); it stands here because `step` takes nothing else (log entry 1). -/
  cfg : Config
  /-- `BUF`, the ByteBuffer, its head first (10_state.md rule R23). -/
  buf : List Byte
  /-- `CTRL` (rule R24). -/
  ctrl : Word32
  /-- `ERR_VALID` (rule R26). -/
  errValid : Bool
  /-- `ERR_CODE` (rule R26). -/
  errCode : Nibble
  /-- `ERR_DETAIL` (rule R26). -/
  errDetail : Nibble
  /-- `CRC_FLAGGED`, sticky (rule R27). -/
  crcFlagged : Bool
  /-- `RESYNC_SEEN`, sticky (rule R28). -/
  resyncSeen : Bool
  /-- `FRAME_COUNT`, wrapping (rule R29). -/
  frameCount : Word32
  /-- `DISCARD_COUNT`, wrapping (rule R30). -/
  discardCount : Word32
  /-- The model's own: what the host has issued and the block has not yet taken, the oldest first (log entry 2). -/
  port : List Input
  /-- The model's own: the responses the host has received, the NEWEST first (70_reset_and_hazards.md rule R275; log entry 3). -/
  responses : List Response
deriving DecidableEq, Repr

/-- The machine right after power-on reset (10_state.md rule R38), built with the default configuration (00_scope.md rule R8),
nothing issued and nothing answered. -/
def State.reset : State where
  cfg := Config.default
  buf := []
  ctrl := 0
  errValid := false
  errCode := 0
  errDetail := 0
  crcFlagged := false
  resyncSeen := false
  frameCount := 0
  discardCount := 0
  port := []
  responses := []

end Sys2Proof.Machine
end

