-- ==== Sys2Proof/Machine/Flags.lean ====
section
/-! DEFINITION. Flags.lean: the fields of `CTRL` (10_state.md rule R24), the assembly of `STATUS` (rule R25), and the numeric
error and detail codes (60_exceptions.md rules R230, R231). The block has no condition codes (rule R36). -/

namespace Sys2Proof.Machine

/-- `CTRL[0]`, `RESYNC_MODE`: true is `SCAN`, false `TERMINATE`. -/
def scanMode (ctrl : Word32) : Bool := ctrl.getLsbD 0

/-- `CTRL[1]`, `CRC_POLICY`: true is `FLAG`, false `STRICT`. -/
def flagPolicy (ctrl : Word32) : Bool := ctrl.getLsbD 1

/-- `CTRL[2]`, `RX_CRC_SCOPE`: true is `FUNC_DATA`, false `FULL_INNER`. -/
def funcDataScope (ctrl : Word32) : Bool := ctrl.getLsbD 2

/-- `CTRL[3]`, `RX_READ_LAYOUT`: true is `VALUES_ONLY`, false `BASE_COUNT_VALUES`. -/
def valuesOnly (ctrl : Word32) : Bool := ctrl.getLsbD 3

/-- What a write of `v` to `CTRL` stores: bits 31:4 are hardwired to 0 (10_state.md rule R32). -/
def ctrlWritten (v : Word32) : Word32 := v &&& 0x0000000F

/-- A status bit widened to 32 bits. -/
def bit32 (b : Bool) : Word32 := if b then 1 else 0

/-- `STATUS` (10_state.md rule R25, by the expression of 44_control.md rule R210). -/
def statusWord (s : State) : Word32 :=
  BitVec.ofNat 32 s.buf.length <<< 16 ||| bit32 s.resyncSeen <<< 13 ||| bit32 s.crcFlagged <<< 12
    ||| s.errDetail.setWidth 32 <<< 8 ||| s.errCode.setWidth 32 <<< 4 ||| bit32 s.errValid

/-- `ERR_CODE` of a decode-time error (60_exceptions.md rule R230). -/
def errorCode : FrameError → Nibble
  | .badH1 => 1
  | .badH2 => 1
  | .lengthOverflow => 2
  | .badFunc => 3
  | .addrMismatch => 3
  | .checksumMismatch => 4
  | .tooShort => 6
  | .badLayout => 6

/-- `ERR_DETAIL` of a decode-time error (60_exceptions.md rule R231). -/
def errorDetail : FrameError → Nibble
  | .badH1 => 0
  | .badH2 => 1
  | .lengthOverflow => 0
  | .badFunc => 0
  | .addrMismatch => 1
  | .checksumMismatch => 0
  | .tooShort => 0
  | .badLayout => 1

/-- The detail of an `INVALID_REQUEST` (60_exceptions.md rule R231). -/
def requestDetail : RequestError → Nibble
  | .badFunc => 0
  | .zeroCount => 1
  | .countRange => 2
  | .addrRange => 3

end Sys2Proof.Machine
end

