-- ==== Sys2Proof/Machine/Ops.lean ====
section
/-! DEFINITION. Ops.lean: the named operations over the state: the response of a command, the buffer primitives of 00_scope.md
rule R13, ENTERING AN ERROR (`State.raise`, 60_exceptions.md rule R236) with LEAVING one beside it (`State.endSession`, rule R238),
and the sentinel search (43_decoder.md rule R174). -/

namespace Sys2Proof.Machine

/-- `return R`: the command ends with response `R`, which the host receives (00_scope.md rule R13). -/
def State.respond (s : State) (r : Response) : State := { s with responses := r :: s.responses }

/-- `BufPush(b)`: append at the tail (00_scope.md rule R13). -/
def State.bufPush (s : State) (b : Byte) : State := { s with buf := s.buf ++ [b] }

/-- `BufPop(n)`: remove the first `n` bytes (00_scope.md rule R13, which requires `n <= BufLen()`). -/
def State.bufPop (s : State) (n : Nat) : State := { s with buf := s.buf.drop n }

/-- `raise Err(code, detail)`: the latch is set and `ERROR(code, detail)` returned; nothing else changes (60_exceptions.md
rule R236). This is the block's one way of entering an error. -/
def State.raise (s : State) (e : FrameError) : State :=
  { s with
    errValid := true
    errCode := errorCode e
    errDetail := errorDetail e
    responses := .error (errorCode e) (errorDetail e) :: s.responses }

/-- The only way out of a latched error (60_exceptions.md rule R238), and what SESSION_RESET does to the state: every element of
10_state.md rule R38 but `CTRL` to its reset value (44_control.md rule R213). -/
def State.endSession (s : State) : State :=
  { s with
    buf := []
    errValid := false
    errCode := 0
    errDetail := 0
    crcFlagged := false
    resyncSeen := false
    frameCount := 0
    discardCount := 0 }

/-- Power-on reset: every element of 10_state.md rule R38 to its power-on value; the configuration is not touched
(70_reset_and_hazards.md rule R260). The port and the host's record are the host's, not the block's (log entry 4). -/
def State.powerOn (s : State) : State := { s.endSession with ctrl := 0 }

/-- Step 2 of the sentinel search, once: the byte at the head leaves, `DISCARD_COUNT` counts it, `RESYNC_SEEN` is set
(43_decoder.md rule R174). -/
def State.discardByte (s : State) : State :=
  { s with
    buf := s.buf.drop 1
    discardCount := s.discardCount + 1
    resyncSeen := true }

/-- How many bytes the sentinel search discards: the positions at the head whose header is bad (43_decoder.md rule R174). -/
def junkLength (cfg : Config) : List Byte → Nat
  | [] => 0
  | b :: rest => if (headerParse cfg (b :: rest)).isBad then junkLength cfg rest + 1 else 0

/-- `n` discards in a row. -/
def State.discardBytes (s : State) : Nat → State
  | 0 => s
  | n + 1 => (s.discardBytes n).discardByte

/-- The loop of TRY_EXTRACT under `RESYNC_MODE = SCAN`: discard while the header at the head is bad (43_decoder.md rule R174). Under
`TERMINATE` nothing is discarded (rule R173). -/
def State.search (s : State) : State :=
  if scanMode s.ctrl then s.discardBytes (junkLength s.cfg s.buf) else s

end Sys2Proof.Machine
end

