-- ==== Sys2Proof/Machine/Control.lean ====
section
/-! DEFINITION. Control.lean: the CSR sub-block (44_control.md): REG_READ, REG_WRITE, SESSION_RESET and the ILLEGAL space. -/

namespace Sys2Proof.Machine

/-- The register map of 10_state.md rule R31, read: the value of an index, none for the reserved ones. -/
def regValue (s : State) (idx : Byte) : Option Word32 :=
  if idx = 0x00 then some s.ctrl
  else if idx = 0x01 then some (statusWord s)
  else if idx = 0x02 then some s.frameCount
  else if idx = 0x03 then some s.discardCount
  else none

/-- `REG_READ IDX`: no side effect; `ILLEGAL` for a reserved index (44_control.md rule R210). -/
def execRegRead (idx : Byte) (s : State) : Host.Outcome State Fault Refusal :=
  .next
    (match regValue s idx with
    | some v => s.respond (.value v)
    | none => s.respond .illegal)

/-- `REG_WRITE IDX, VALUE`: `CTRL` alone is writable (44_control.md rules R211, R212). -/
def execRegWrite (idx : Byte) (value : Word32) (s : State) : Host.Outcome State Fault Refusal :=
  .next
    (if idx = 0x00 then { s with ctrl := ctrlWritten value, responses := .ack :: s.responses }
    else s.respond .illegal)

/-- `SESSION_RESET` (44_control.md rule R213). -/
def execSessionReset (s : State) : Host.Outcome State Fault Refusal := .next (s.endSession.respond .ack)

/-- An ill-formed word: `ILLEGAL`, no state change, whatever the word (44_control.md rule R214). -/
def execIllegal (_word : Command) (s : State) : Host.Outcome State Fault Refusal := .next (s.respond .illegal)

end Sys2Proof.Machine
end

