-- ==== Sys2Proof/Machine/Crc.lean ====
section
/-! DEFINITION. Crc.lean: the CRC sub-block, one function for both directions (40_crc16.md rules R100 to R105), with the byte
sequences each direction covers. -/

namespace Sys2Proof.Machine

/-- One shift of the CRC register: XOR the polynomial when bit 15 falls out (40_crc16.md rule R101). -/
def crcShift (poly c : Half) : Half := if c.msb then (c <<< 1) ^^^ poly else c <<< 1

/-- One byte into the CRC register: `c XOR (zext_16(d) << 8)`, then eight shifts, `d` bit-reversed first under `CRC_REFIN`
(40_crc16.md rule R101). -/
def crcByte (cfg : Config) (c : Half) (d : Byte) : Half :=
  let d := if cfg.crcRefIn then d.reverse else d
  (crcShift cfg.crcPoly)^[8] (c ^^^ (d.setWidth 16 <<< 8))

/-- `CRC16(B)` (40_crc16.md rule R101); total, the empty sequence included. -/
def crc16 (cfg : Config) (B : List Byte) : Half :=
  let c := B.foldl (crcByte cfg) cfg.crcInit
  (if cfg.crcRefOut then c.reverse else c) ^^^ cfg.crcXorOut

/-- One shift of the shift-right form (40_crc16.md rule R102). -/
def crcShiftRight (c : Half) : Half := if c.getLsbD 0 then (c >>> 1) ^^^ 0xA001 else c >>> 1

/-- The shift-right form of 40_crc16.md rule R102, which the default parameters make equal to `crc16`. -/
def crc16Right (B : List Byte) : Half :=
  B.foldl (fun c d => crcShiftRight^[8] (c ^^^ d.setWidth 16)) 0xFFFF

/-- The five bytes a request's CRC covers: function, base register, count or value (40_crc16.md rule R104). -/
def requestCoverage (func : Byte) (base arg : Half) : List Byte := [func] ++ w16 base ++ w16 arg

/-- `F[8..T-2)` of a received frame, in its fields: serial, pad, addr, func, data (40_crc16.md rule R105, `FULL_INNER`). -/
def fullInnerCoverage (func : FuncCode) (fr : RxFrame) : List Byte :=
  fr.serial ++ [fr.pad, protocol.slaveAddr, funcByte func] ++ fr.data

/-- `F[20..T-2)` of a received frame, in its fields: func and data (40_crc16.md rule R105, `FUNC_DATA`). -/
def funcDataCoverage (func : FuncCode) (fr : RxFrame) : List Byte := [funcByte func] ++ fr.data

end Sys2Proof.Machine
end

