-- ==== Sys2Proof/WellFormed.lean ====
section
/-! DEFINITION. WellFormed.lean: which terms of `Instr` an encoding of the spec spells. A command's operands fill their fields,
so every command is well-formed; `illegal` holds only a word that no command row of the opcode table matches; a received
frame has a 10-byte serial and a total length the decoder accepts. -/

namespace Sys2Proof

/-- The command rows of spec/opcode_table.json: each row's match and mask, in the table's order. -/
def commandRows : List (Command × Command) :=
  [(0x100000000000, 0xFF0000000000),   -- ENCODE
   (0x200000000000, 0xFFFFFFFFFF00),   -- FEED
   (0x300000000000, 0xFFFFFFFFFFFF),   -- TRY_EXTRACT
   (0x400000000000, 0xFFFFFFFFFFFF),   -- SESSION_RESET
   (0x500000000000, 0xFF00FFFFFFFF),   -- REG_READ
   (0x600000000000, 0xFF0000000000)]   -- REG_WRITE

/-- A word spells no command: it matches no command row (30_encoding.md rule R83). -/
def illFormedWord (w : Command) : Bool := commandRows.all fun row => w &&& row.2 != row.1

/-- A received frame's operands fit the frame format: ten serial bytes, and `T = 23 + D` within the decoder's bound
(30_encoding.md rule R71, 42_header_splitter.md rule R145). -/
def RxFrame.wf (cfg : Config) (fr : RxFrame) : Bool :=
  fr.serial.length == 10 && decide (minFrameLen + fr.data.length ≤ cfg.maxFrameLen)

/-- The well-formed instructions of an instance with configuration `cfg`. -/
def Instr.wf (cfg : Config) : Instr → Bool
  | .encode _ _ _ => true
  | .feed _ => true
  | .tryExtract => true
  | .sessionReset => true
  | .regRead _ => true
  | .regWrite _ _ => true
  | .illegal w => illFormedWord w
  | .txReadHolding _ _ => true
  | .txReadInput _ _ => true
  | .txWriteSingle _ _ => true
  | .rxReadHolding fr => fr.wf cfg
  | .rxReadInput fr => fr.wf cfg
  | .rxWriteSingle fr => fr.wf cfg

end Sys2Proof
end

