-- ==== Sys2Proof/Decode.lean ====
section
/-! DEFINITION. Decode.lean: the decoder, total on any encoding and rejecting by name, and after it the encoder, both written
from 30_encoding.md: the command word of rules R80 to R82, the request frame of rule R72, the received frame of rule R71. The
last part numbers an instruction's bits as spec/opcode_table.json does. -/

namespace Sys2Proof

open Machine

/-! ## The command word (30_encoding.md rules R80 to R83) -/

/-- The command a 48-bit word spells. Total: a reserved `OP`, or a reserved bit set, is the table's ILLEGAL row. -/
def decodeCommand (w : Command) : Instr :=
  let op : Nibble := w.extractLsb' 44 4
  let reserved : Nibble := w.extractLsb' 40 4
  if reserved ≠ 0 then .illegal w
  else if op = 0x1 then .encode (w.extractLsb' 32 8) (w.extractLsb' 16 16) (w.extractLsb' 0 16)
  else if op = 0x2 then if w.extractLsb' 8 32 = 0 then .feed (w.extractLsb' 0 8) else .illegal w
  else if op = 0x3 then if w.extractLsb' 0 40 = 0 then .tryExtract else .illegal w
  else if op = 0x4 then if w.extractLsb' 0 40 = 0 then .sessionReset else .illegal w
  else if op = 0x5 then if w.extractLsb' 0 32 = 0 then .regRead (w.extractLsb' 32 8) else .illegal w
  else if op = 0x6 then .regWrite (w.extractLsb' 32 8) (w.extractLsb' 0 32)
  else .illegal w

/-! ## The wire frames (30_encoding.md Part A) -/

/-- The request frame ENC builds: `TX_SERIAL ++ [TX_PAD, SLAVE_ADDR, FUNC] ++ w16(BASE) ++ w16(ARG) ++ wcrc(crc)` behind its
header (41_encoder.md rule R120, 30_encoding.md rule R72). -/
def requestFrame (cfg : Config) (func : Byte) (base arg : Half) : List Byte :=
  frameOf (protocol.txSerial ++ [cfg.txPad, protocol.slaveAddr, func] ++ w16 base ++ w16 arg
    ++ wcrc cfg.crcWireOrder (crc16 cfg (requestCoverage func base arg)))

/-- A received frame with function code `func` and the operands `fr` (30_encoding.md rule R71). -/
def receivedFrame (cfg : Config) (func : FuncCode) (fr : RxFrame) : List Byte :=
  frameOf (fr.serial ++ [fr.pad, protocol.slaveAddr, funcByte func] ++ fr.data ++ wcrc cfg.crcWireOrder fr.crc)

/-- The request instruction of a function code (41_encoder.md rules R126 to R128). -/
def requestInstr : FuncCode → Half → Half → Instr
  | .readHolding, base, arg => .txReadHolding base arg
  | .readInput, base, arg => .txReadInput base arg
  | .writeSingle, base, arg => .txWriteSingle base arg

/-- The received-frame instruction of a function code (43_decoder.md rules R180 to R182). -/
def receivedInstr : FuncCode → RxFrame → Instr
  | .readHolding, fr => .rxReadHolding fr
  | .readInput, fr => .rxReadInput fr
  | .writeSingle, fr => .rxWriteSingle fr

/-- The request 27 bytes spell: function code, base and argument at bytes 20 to 24, every other byte as rule R72 fixes it. -/
def decodeRequest (cfg : Config) (F : List Byte) : Except Reject Instr :=
  if F.length ≠ reqFrameLen then .error .requestLength
  else
    match funcOfByte (byteAt F 20) with
    | none => .error .badFunc
    | some func =>
      let good := requestFrame cfg (funcByte func) (be16 F 21) (be16 F 23)
      if F = good then .ok (requestInstr func (be16 F 21) (be16 F 23))
      else if slice F 0 25 = slice good 0 25 then .error .requestCrc
      else .error .requestConstants

/-- The received frame a byte sequence spells, by the decoder's steps 1 to 4 (43_decoder.md rule R170); the CRC field is an
operand, which the frame's meaning checks. -/
def decodeReceived (cfg : Config) (F : List Byte) : Except Reject Instr :=
  match headerParse cfg F with
  | .short => .error .short
  | .badH1 => .error .badH1
  | .badH2 => .error .badH2
  | .tooLong => .error .tooLong
  | .tooShort => .error .tooShort
  | .incomplete _ => .error .lengthMismatch
  | .complete total =>
    if F.length ≠ total then .error .lengthMismatch
    else if byteAt F 19 ≠ protocol.slaveAddr then .error .addrMismatch
    else
      match funcOfByte (byteAt F 20) with
      | none => .error .badFunc
      | some func => .ok (receivedInstr func (rxFields cfg.crcWireOrder F))

/-- The decoder of an instance with configuration `cfg`, total. -/
def decode (cfg : Config) : Encoded → Except Reject Instr
  | .command w => .ok (decodeCommand w)
  | .request F => decodeRequest cfg F
  | .received F => decodeReceived cfg F

/-! ## The encoder -/

/-- A command word: `OP` in bits 47:44, the reserved bits 43:40 zero, the operand `hi` in bits 39:32 and `lo` in bits 31:0
(30_encoding.md rules R80, R82). -/
def encodeWord (op : Nibble) (hi : Byte) (lo : Word32) : Command :=
  op.setWidth 48 <<< 44 ||| hi.setWidth 48 <<< 32 ||| lo.setWidth 48

/-- Two 16-bit operands in bits 31:16 and 15:0 (30_encoding.md rule R82). -/
def halves (base arg : Half) : Word32 := base.setWidth 32 <<< 16 ||| arg.setWidth 32

/-- The encoding of an instruction (30_encoding.md rules R71, R72, R80 to R82). -/
def encode (cfg : Config) : Instr → Encoded
  | .encode func base arg => .command (encodeWord 0x1 func (halves base arg))
  | .feed byte => .command (encodeWord 0x2 0 (byte.setWidth 32))
  | .tryExtract => .command (encodeWord 0x3 0 0)
  | .sessionReset => .command (encodeWord 0x4 0 0)
  | .regRead idx => .command (encodeWord 0x5 idx 0)
  | .regWrite idx value => .command (encodeWord 0x6 idx value)
  | .illegal w => .command w
  | .txReadHolding base count => .request (requestFrame cfg (funcByte .readHolding) base count)
  | .txReadInput base count => .request (requestFrame cfg (funcByte .readInput) base count)
  | .txWriteSingle reg value => .request (requestFrame cfg (funcByte .writeSingle) reg value)
  | .rxReadHolding fr => .received (receivedFrame cfg .readHolding fr)
  | .rxReadInput fr => .received (receivedFrame cfg .readInput fr)
  | .rxWriteSingle fr => .received (receivedFrame cfg .writeSingle fr)

/-- The command word the host issues to run an instruction: a command's own word; for a request, ENCODE with its function code
and operands (41_encoder.md rules R126 to R128); for a received frame, TRY_EXTRACT (43_decoder.md rule R170). -/
def commandFor : Instr → Command
  | .encode func base arg => encodeWord 0x1 func (halves base arg)
  | .feed byte => encodeWord 0x2 0 (byte.setWidth 32)
  | .tryExtract => encodeWord 0x3 0 0
  | .sessionReset => encodeWord 0x4 0 0
  | .regRead idx => encodeWord 0x5 idx 0
  | .regWrite idx value => encodeWord 0x6 idx value
  | .illegal w => w
  | .txReadHolding base count => encodeWord 0x1 (funcByte .readHolding) (halves base count)
  | .txReadInput base count => encodeWord 0x1 (funcByte .readInput) (halves base count)
  | .txWriteSingle reg value => encodeWord 0x1 (funcByte .writeSingle) (halves reg value)
  | .rxReadHolding _ => encodeWord 0x3 0 0
  | .rxReadInput _ => encodeWord 0x3 0 0
  | .rxWriteSingle _ => encodeWord 0x3 0 0

/-! ## The opcode table's numbering (log entry 8) -/

/-- The `n` bytes of a table word, byte 0 the most significant ("byte i of the frame is bits (215-8i):(208-8i)"). -/
def tableBytes : Nat → Nat → List Byte
  | 0, _ => []
  | n + 1, w => BitVec.ofNat 8 (w / 256 ^ n) :: tableBytes n w

/-- The received frame that a table row of eight bits stands for: the row gives frame byte 20 alone, its `match_field` fixes the
sentinels and the address. DESIGN CHOICE (log entry 8): every operand byte is 0, the data section has the four bytes that every
kind of frame accepts in the reset layout, and the CRC is the right one for `FULL_INNER`. -/
def tableReceived (func : Byte) : List Byte :=
  let inner := List.replicate 11 (0 : Byte) ++ [protocol.slaveAddr, func] ++ List.replicate 4 (0 : Byte)
  frameOf (inner ++ wcrc Config.default.crcWireOrder (crc16 Config.default inner))

/-- A 27-byte table word with its `c` letters filled in: the row says they are no operand but the CRC of the others. -/
def withRequestCrc (F : List Byte) : List Byte :=
  slice F 0 25 ++ wcrc Config.default.crcWireOrder
    (crc16 Config.default (requestCoverage (byteAt F 20) (be16 F 21) (be16 F 23)))

/-- The encoding that `nbits` bits `w`, numbered as the opcode table numbers them, stand for: eight bits are the function code
of a received frame, up to 48 a command word, more the bytes of a frame, a request where its first 20 bytes are a request's. -/
def tableEncoding (nbits w : Nat) : Encoded :=
  if nbits ≤ 8 then .received (tableReceived (BitVec.ofNat 8 w))
  else if nbits ≤ 48 then .command (BitVec.ofNat 48 w)
  else
    let F := tableBytes (nbits / 8) w
    if slice F 0 20 = slice (requestFrame Config.default 0 0 0) 0 20 then .request (withRequestCrc F) else .received F

/-- The instruction the decoder reads from a table word (the fixed name of the host's check). -/
def decodeTableWord (nbits w : Nat) : Option Instr :=
  match decode Config.default (tableEncoding nbits w) with
  | .ok i => some i
  | .error _ => none

end Sys2Proof
end

