-- ==== Sys2Proof/Machine/Decoder.lean ====
section
/-! DEFINITION. Decoder.lean: the DEC sub-block (43_decoder.md): TRY_EXTRACT and the three frames it decodes. The meaning of a
received frame is steps 5 to 7 of rule R170 on that frame; TRY_EXTRACT runs it on the frame at the head of the buffer. -/

namespace Sys2Proof.Machine

/-- What PARSE returns (43_decoder.md rule R170): base, arg, regs. -/
structure Parsed where
  /-- The base register, or none. -/
  base : Option Half
  /-- The count or value. -/
  arg : Half
  /-- The register values. -/
  regs : List Half
deriving DecidableEq, Repr

/-- `PARSE(0x03, data)`, which is `PARSE(0x04, data)` too (43_decoder.md rules R180, R181). None is the layout failure. -/
def parseRead (ctrl : Word32) (data : List Byte) : Option Parsed :=
  if valuesOnly ctrl then
    if data.length % 2 = 1 then none else some ⟨none, BitVec.ofNat 16 (data.length / 2), words16 data⟩
  else if data.length < 4 ∨ data.length % 2 = 1 then none
  else some ⟨some (be16 data 0), be16 data 2, words16 (data.drop 4)⟩

/-- `PARSE(0x06, data)` (43_decoder.md rule R182). None is the layout failure. -/
def parseWrite (data : List Byte) : Option Parsed :=
  if data.length ≠ 4 then none else some ⟨some (be16 data 0), be16 data 2, []⟩

/-- PARSE by function code (43_decoder.md rules R180 to R182). -/
def parseData (ctrl : Word32) (func : FuncCode) (data : List Byte) : Option Parsed :=
  match func with
  | .readHolding => parseRead ctrl data
  | .readInput => parseRead ctrl data
  | .writeSingle => parseWrite data

/-- The bytes a received frame's CRC covers, by `RX_CRC_SCOPE` (40_crc16.md rule R105). -/
def coverage (ctrl : Word32) (func : FuncCode) (fr : RxFrame) : List Byte :=
  if funcDataScope ctrl then funcDataCoverage func fr else fullInnerCoverage func fr

/-- `T` of a received frame: `23 + D` (30_encoding.md rule R71). -/
def rxTotal (fr : RxFrame) : Nat := minFrameLen + fr.data.length

/-- The DecodedFrame of a parsed frame (43_decoder.md rule R184). -/
def decodedFrame (func : FuncCode) (fr : RxFrame) (p : Parsed) (crcCalc : Half) : DecodedFrame where
  func := funcByte func
  base := p.base
  arg := p.arg
  regs := p.regs
  data := fr.data
  serial := fr.serial
  pad := fr.pad
  crcRx := fr.crc
  crcCalc := crcCalc
  crcOk := crcCalc == fr.crc

/-- Step 7: the frame leaves the buffer, `FRAME_COUNT` counts it, `CRC_FLAGGED` is set if its CRC did not match, and `FRAME`
is returned (43_decoder.md rule R185, 42_header_splitter.md rule R148). -/
def State.emit (s : State) (total : Nat) (df : DecodedFrame) : State :=
  { s with
    buf := s.buf.drop total
    frameCount := s.frameCount + 1
    crcFlagged := s.crcFlagged || !df.crcOk
    responses := .frame df :: s.responses }

/-- Steps 5 to 7 on a frame with a known function code (43_decoder.md rules R178 to R185): the CRC check under `CRC_POLICY`, PARSE,
the emission. A layout failure is raised after the CRC step (rule R183). -/
def State.decodeFrame (s : State) (func : FuncCode) (fr : RxFrame) : State :=
  let crcCalc := crc16 s.cfg (coverage s.ctrl func fr)
  if crcCalc ≠ fr.crc ∧ flagPolicy s.ctrl = false then s.raise .checksumMismatch
  else
    match parseData s.ctrl func fr.data with
    | none => s.raise .badLayout
    | some p => s.emit (rxTotal fr) (decodedFrame func fr p crcCalc)

/-- Steps 4 to 7 on the candidate frame `F` (43_decoder.md rules R176, R177): the address before the function code. -/
def State.judge (s : State) (F : List Byte) : State :=
  if byteAt F 19 ≠ protocol.slaveAddr then s.raise .addrMismatch
  else
    match funcOfByte (byteAt F 20) with
    | none => s.raise .badFunc
    | some func => s.decodeFrame func (rxFields s.cfg.crcWireOrder F)

/-- One pass of TRY_EXTRACT, the sentinel search behind it: steps 1 to 7 on the head of the buffer (43_decoder.md rule R170). -/
def State.extract (s : State) : State :=
  match headerParse s.cfg s.buf with
  | .short => s.respond .needMore
  | .badH1 => s.raise .badH1
  | .badH2 => s.raise .badH2
  | .tooLong => s.raise .lengthOverflow
  | .tooShort => s.raise .tooShort
  | .incomplete _ => s.respond .needMore
  | .complete total => s.judge (slice s.buf 0 total)

/-- `TRY_EXTRACT` (43_decoder.md rule R170): a latched error is returned again (rule R171); else the search, then one pass. -/
def execTryExtract (s : State) : Host.Outcome State Fault Refusal :=
  .next (if s.errValid then s.respond (.error s.errCode s.errDetail) else s.search.extract)

/-- The frame with function code `func` and operands `fr` is what TRY_EXTRACT finds: no error is latched, and the frame, one the
decoder accepts, stands at the head of the buffer. -/
def State.frameAtHead (s : State) (func : FuncCode) (fr : RxFrame) : Bool :=
  !s.errValid && fr.wf s.cfg && (receivedFrame s.cfg func fr).isPrefixOf s.buf

/-- A received read-holding-registers frame, run by TRY_EXTRACT: steps 5 to 7 with `func = 0x03` when the frame is at the head
(43_decoder.md rule R180); in any other state, what TRY_EXTRACT does there (log entry 7). -/
def execRxReadHolding (frame : RxFrame) (s : State) : Host.Outcome State Fault Refusal :=
  if s.frameAtHead .readHolding frame then .next (s.decodeFrame .readHolding frame) else execTryExtract s

/-- A received read-input-registers frame, run by TRY_EXTRACT: steps 5 to 7 with `func = 0x04` when the frame is at the head
(43_decoder.md rule R181); in any other state, what TRY_EXTRACT does there (log entry 7). -/
def execRxReadInput (frame : RxFrame) (s : State) : Host.Outcome State Fault Refusal :=
  if s.frameAtHead .readInput frame then .next (s.decodeFrame .readInput frame) else execTryExtract s

/-- A received write-single-register frame, run by TRY_EXTRACT: steps 5 to 7 with `func = 0x06` when the frame is at the head
(43_decoder.md rule R182); in any other state, what TRY_EXTRACT does there (log entry 7). -/
def execRxWriteSingle (frame : RxFrame) (s : State) : Host.Outcome State Fault Refusal :=
  if s.frameAtHead .writeSingle frame then .next (s.decodeFrame .writeSingle frame) else execTryExtract s

end Sys2Proof.Machine
end

