-- ==== Sys2Proof/Machine/Encoder.lean ====
section
/-! DEFINITION. Encoder.lean: the ENC sub-block (41_encoder.md): ENCODE and the three requests it builds. ENC reads the
configuration alone and writes no state element (rule R125); its answer goes to the host. -/

namespace Sys2Proof.Machine

/-- The checks of 41_encoder.md rule R121 in their order, for a known function code: only reads check the count and the span. -/
def requestError (cfg : Config) (func : FuncCode) (base arg : Half) : Option RequestError :=
  match func with
  | .writeSingle => none
  | .readHolding | .readInput =>
    if arg = 0 then some .zeroCount
    else if arg.toNat > cfg.maxCount then some .countRange
    else if base.toNat + arg.toNat > 0x10000 then some .addrRange
    else none

/-- ENCODE's answer, a pure function of the configuration and the operands (41_encoder.md rules R120, R121, R125). -/
def encodeRequest (cfg : Config) (func : Byte) (base arg : Half) : Response :=
  match funcOfByte func with
  | none => .invalidRequest (requestDetail .badFunc)
  | some code =>
    match requestError cfg code base arg with
    | some e => .invalidRequest (requestDetail e)
    | none => .ok (requestFrame cfg func base arg)

/-- `ENCODE FUNC, BASE, ARG` (41_encoder.md rule R120). -/
def execEncode (func : Byte) (base arg : Half) (s : State) : Host.Outcome State Fault Refusal :=
  .next (s.respond (encodeRequest s.cfg func base arg))

/-- The read-holding-registers request: rule R120 with `FUNC = 0x03` (41_encoder.md rule R126; log entry 6). -/
def execTxReadHolding (base count : Half) (s : State) : Host.Outcome State Fault Refusal :=
  .next (s.respond (encodeRequest s.cfg (funcByte .readHolding) base count))

/-- The read-input-registers request: rule R120 with `FUNC = 0x04` (41_encoder.md rule R127). -/
def execTxReadInput (base count : Half) (s : State) : Host.Outcome State Fault Refusal :=
  .next (s.respond (encodeRequest s.cfg (funcByte .readInput) base count))

/-- The write-single-register request: rule R120 with `FUNC = 0x06` (41_encoder.md rule R128). -/
def execTxWriteSingle (reg value : Half) (s : State) : Host.Outcome State Fault Refusal :=
  .next (s.respond (encodeRequest s.cfg (funcByte .writeSingle) reg value))

end Sys2Proof.Machine
end

