-- ==== Sys2Proof/Machine/Splitter.lean ====
section
/-! DEFINITION. Splitter.lean: the transport side of the FS sub-block: FEED (42_header_splitter.md rules R140 to R142). -/

namespace Sys2Proof.Machine

/-- `FEED BYTE`: append, or `FULL` and nothing taken when `BUF` holds `BUF_CAP` bytes; the latch is not consulted
(42_header_splitter.md rules R140 to R142). -/
def execFeed (byte : Byte) (s : State) : Host.Outcome State Fault Refusal :=
  .next (if s.buf.length = s.cfg.bufCap then s.respond .full else (s.bufPush byte).respond .ack)

end Sys2Proof.Machine
end

