-- ==== Sys2Proof/Machine/Dispatch.lean ====
section
/-! DEFINITION. Dispatch.lean: one arm per row of spec/opcode_table.json, each one call of its meaning. -/

namespace Sys2Proof.Machine

def exec (i : Instr) (s : State) : Host.Outcome State Fault Refusal :=
  match i with
  | .encode func base arg => Sys2Proof.Machine.execEncode func base arg s
  | .feed byte => Sys2Proof.Machine.execFeed byte s
  | .tryExtract => Sys2Proof.Machine.execTryExtract s
  | .sessionReset => Sys2Proof.Machine.execSessionReset s
  | .regRead idx => Sys2Proof.Machine.execRegRead idx s
  | .regWrite idx value => Sys2Proof.Machine.execRegWrite idx value s
  | .illegal word => Sys2Proof.Machine.execIllegal word s
  | .txReadHolding base count => Sys2Proof.Machine.execTxReadHolding base count s
  | .txReadInput base count => Sys2Proof.Machine.execTxReadInput base count s
  | .txWriteSingle reg value => Sys2Proof.Machine.execTxWriteSingle reg value s
  | .rxReadHolding frame => Sys2Proof.Machine.execRxReadHolding frame s
  | .rxReadInput frame => Sys2Proof.Machine.execRxReadInput frame s
  | .rxWriteSingle frame => Sys2Proof.Machine.execRxWriteSingle frame s

end Sys2Proof.Machine
end

