-- ==== Sys2Proof/Machine/Present.lean ====
section
/-! DEFINITION. Present.lean: how an encoded instruction is placed so that the next step runs it (log entry 8). The block fetches
no instructions (10_state.md rule R21): a command word is issued at the port, a request by ENCODE with its operands, a received
frame by its bytes in the buffer and TRY_EXTRACT. -/

namespace Sys2Proof.Machine

/-- The word as the host's next command. -/
def State.issueFirst (s : State) (w : Command) : State := { s with port := .command w :: s.port }

/-- The bytes as all that is buffered, no error latched, and TRY_EXTRACT as the host's next command: what it takes for the next
step to run a received frame. -/
def State.receiveFirst (s : State) (F : List Byte) : State :=
  { s with
    buf := F
    errValid := false
    errCode := 0
    errDetail := 0
    port := .command (commandFor .tryExtract) :: s.port }

/-- Place an encoded instruction where the next step runs it. -/
def State.present (s : State) : Encoded → State
  | .command w => s.issueFirst w
  | .request F => s.issueFirst (encodeWord 0x1 (byteAt F 20) (halves (be16 F 21) (be16 F 23)))
  | .received F => s.receiveFirst F

end Sys2Proof.Machine
end

