-- ==== Sys2Proof/Machine/Step.lean ====
section
/-! DEFINITION. Step.lean: one step of the machine, and where the host's check places an instruction. -/

namespace Sys2Proof.Machine

/-- One step: the block takes the oldest input of its port and runs it to completion (00_scope.md rule R14, 20_memory.md rule
R59). With nothing issued the block holds its state (60_exceptions.md rule R245). -/
def step (s : State) : Host.Outcome State Fault Refusal :=
  match s.port with
  | [] => .next s
  | .command w :: rest => exec (decodeCommand w) { s with port := rest }
  | .powerOnReset :: rest => .next { s.powerOn with port := rest }

/-- `s` with the table word placed where the next step runs it (log entry 8). -/
def State.withFetchWord (s : State) (nbits w : Nat) : State := s.present (tableEncoding nbits w)

end Sys2Proof.Machine
end

