-- ==== Sys2Proof/Machine/Pseudo.lean ====
section
/-! DEFINITION. Pseudo.lean: sequences of commands: the pseudo-commands of 30_encoding.md rule R87, and a run of instructions
(70_reset_and_hazards.md rule R275). -/

namespace Sys2Proof.Machine

/-- The instructions in order, each seeing every effect of the earlier ones (20_memory.md rule R59); a fault or a refusal would
end the run. -/
def runInstrs : List Instr → State → Host.Outcome State Fault Refusal
  | [], s => .next s
  | i :: rest, s =>
    match exec i s with
    | .next t => runInstrs rest t
    | .fault f => .fault f
    | .refused r => .refused r

/-- `FEEDS b_0 ... b_{k-1}`: one FEED per byte, in that order (30_encoding.md rule R87). -/
def feeds (bytes : List Byte) : List Instr := bytes.map .feed

/-- `WRCTRL v`: `REG_WRITE CTRL, v` (30_encoding.md rule R87). -/
def wrctrl (v : Word32) : List Instr := [.regWrite 0x00 v]

/-- Whether the newest response is `FRAME`. -/
def State.gotFrame (s : State) : Bool :=
  match s.responses with
  | .frame _ :: _ => true
  | _ => false

/-- `DRAIN`: TRY_EXTRACT repeated while the response is `FRAME`, at most `n` times (30_encoding.md rule R87). -/
def drain : Nat → State → Host.Outcome State Fault Refusal
  | 0, s => .next s
  | n + 1, s =>
    match exec .tryExtract s with
    | .next t => if t.gotFrame then drain n t else .next t
    | .fault f => .fault f
    | .refused r => .refused r

/-- The number of commands after which rule R87 says that DRAIN has ended: `floor(BUF_LEN / 23) + 1`. -/
def drainBound (s : State) : Nat := s.buf.length / 23 + 1

end Sys2Proof.Machine
end

