-- ==== Sys2Proof/Safety.lean ====
section
/-! DEFINITION. Safety.lean: the terms the claims use: the invariant of the machine, and what a part of the state holds. -/

namespace Sys2Proof.Machine

/-- The error latch is coherent: with no error latched both codes read 0, and a latched pair is one of 60_exceptions.md
rules R230 and R231 that TRY_EXTRACT raises (so never code 5, and never 7 to 15). -/
def State.LatchOk (s : State) : Prop :=
  if s.errValid then ∃ e : FrameError, s.errCode = errorCode e ∧ s.errDetail = errorDetail e
  else s.errCode = 0 ∧ s.errDetail = 0

/-- The invariant: the buffer is within its capacity (10_state.md rule R22), the reserved bits of `CTRL` are 0 (rule R32), the
latch is coherent (rules R25, R26), and a counted discard has set `RESYNC_SEEN` (rules R28, R30). -/
structure State.Inv (s : State) : Prop where
  /-- `len(BUF) <= BUF_CAP`. -/
  buf_le : s.buf.length ≤ s.cfg.bufCap
  /-- `CTRL[31:4] = 0`. -/
  ctrl_reserved : s.ctrl &&& 0xFFFFFFF0 = 0
  /-- The latch is coherent. -/
  latch_ok : s.LatchOk
  /-- A discard is never counted without the sticky bit. -/
  discard_seen : s.discardCount ≠ 0 → s.resyncSeen = true

/-- The nine state elements of 10_state.md rule R22 are the same in both states. -/
abbrev SameBlock (s t : State) : Prop :=
  t.buf = s.buf ∧ t.ctrl = s.ctrl ∧ t.errValid = s.errValid ∧ t.errCode = s.errCode ∧ t.errDetail = s.errDetail ∧
  t.crcFlagged = s.crcFlagged ∧ t.resyncSeen = s.resyncSeen ∧ t.frameCount = s.frameCount ∧ t.discardCount = s.discardCount

/-- The two states agree on everything TRY_EXTRACT may look at: the configuration, `BUF`, `CTRL` and the latch
(43_decoder.md rule R188). -/
abbrev SameInputs (s t : State) : Prop :=
  t.cfg = s.cfg ∧ t.buf = s.buf ∧ t.ctrl = s.ctrl ∧ t.errValid = s.errValid ∧ t.errCode = s.errCode ∧ t.errDetail = s.errDetail

/-! ## The shapes of a next state, with the numbers of the rules -/

/-- `s` with `r` as its newest response and nothing else changed. -/
def answered (s : State) (r : Response) : State := { s with responses := r :: s.responses }

/-- `s` after `raise Err(code, detail)` (60_exceptions.md rule R236). -/
def withError (s : State) (code detail : Nibble) : State :=
  { s with
    errValid := true
    errCode := code
    errDetail := detail
    responses := .error code detail :: s.responses }

/-- `s` after a frame of `total` bytes was emitted as `df` (43_decoder.md rule R185). -/
def withFrame (s : State) (total : Nat) (df : DecodedFrame) : State :=
  { s with
    buf := s.buf.drop total
    frameCount := s.frameCount + 1
    crcFlagged := s.crcFlagged || !df.crcOk
    responses := .frame df :: s.responses }

/-- `s` after the sentinel search discarded `n` bytes (43_decoder.md rule R174). -/
def withDiscards (s : State) (n : Nat) : State :=
  { s with
    buf := s.buf.drop n
    discardCount := s.discardCount + BitVec.ofNat 32 n
    resyncSeen := s.resyncSeen || decide (0 < n) }

/-! ## Frames as bytes, with the offsets of 30_encoding.md rules R70, R71 -/

/-- The sentinels stand at the head of `B`. -/
abbrev GoodHeader (B : List Byte) : Prop :=
  8 ≤ B.length ∧ slice B 0 4 = [0x59, 0x59, 0x00, 0x01] ∧ slice B 6 8 = [0x01, 0x02]

/-- `T = be16(len) + 6` (30_encoding.md rule R76). -/
def declaredTotal (B : List Byte) : Nat := (be16 B 4).toNat + 6

/-- `F` is the candidate frame at the head of `s`: no error latched, a good header, a length within bounds, all of it buffered
(42_header_splitter.md rule R147). -/
structure Candidate (s : State) (F : List Byte) : Prop where
  /-- No error is latched. -/
  unlatched : s.errValid = false
  /-- Both sentinels match. -/
  header : GoodHeader s.buf
  /-- `23 <= T`. -/
  total_ge : 23 ≤ declaredTotal s.buf
  /-- `T <= MAX_FRAME_LEN`. -/
  total_le : declaredTotal s.buf ≤ s.cfg.maxFrameLen
  /-- `T <= BufLen()`. -/
  buffered : declaredTotal s.buf ≤ s.buf.length
  /-- `F = BufPeek(0, T)`. -/
  is_head : F = s.buf.take (declaredTotal s.buf)

/-- The three function codes (30_encoding.md rule R77). -/
abbrev KnownFunc (b : Byte) : Prop := b = 0x03 ∨ b = 0x04 ∨ b = 0x06

/-- `cov` of a frame `F` (40_crc16.md rule R105). -/
def coveredBytes (ctrl : Word32) (F : List Byte) : List Byte :=
  if funcDataScope ctrl then slice F 20 (F.length - 2) else slice F 8 (F.length - 2)

/-- `crc_calc` of a frame `F` (40_crc16.md rule R106). -/
def frameCrc (cfg : Config) (ctrl : Word32) (F : List Byte) : Half := crc16 cfg (coveredBytes ctrl F)

/-- `crc_rx` of a frame `F` (40_crc16.md rule R106). -/
def frameCrcField (cfg : Config) (F : List Byte) : Half := rcrc cfg.crcWireOrder F (F.length - 2)

/-- A data section of `D` bytes fits the layout of function code `func` (43_decoder.md rules R180 to R182). -/
abbrev LayoutOk (ctrl : Word32) (func : Byte) (D : Nat) : Prop :=
  if func = 0x06 then D = 4 else if valuesOnly ctrl then D % 2 = 0 else 4 ≤ D ∧ D % 2 = 0

/-- The DecodedFrame of a frame `F`, each field at its offset in the frame (43_decoder.md rules R180 to R184). -/
def frameRecord (cfg : Config) (ctrl : Word32) (F : List Byte) : DecodedFrame where
  func := byteAt F 20
  base := if byteAt F 20 ≠ 0x06 ∧ valuesOnly ctrl = true then none else some (be16 F 21)
  arg := if byteAt F 20 ≠ 0x06 ∧ valuesOnly ctrl = true then BitVec.ofNat 16 ((F.length - 23) / 2) else be16 F 23
  regs :=
    if byteAt F 20 = 0x06 then []
    else if valuesOnly ctrl then (List.range ((F.length - 23) / 2)).map fun k => be16 F (21 + 2 * k)
    else (List.range ((F.length - 27) / 2)).map fun k => be16 F (25 + 2 * k)
  data := slice F 21 (F.length - 2)
  serial := slice F 8 18
  pad := byteAt F 18
  crcRx := frameCrcField cfg F
  crcCalc := frameCrc cfg ctrl F
  crcOk := frameCrc cfg ctrl F == frameCrcField cfg F

/-- `V` is exactly one frame, which a decoder with this configuration and `CTRL` emits (43_decoder.md rule R189's "valid
frame"). -/
structure ValidFrame (cfg : Config) (ctrl : Word32) (V : List Byte) : Prop where
  /-- Both sentinels match. -/
  header : GoodHeader V
  /-- `V` is `T` bytes long. -/
  total : declaredTotal V = V.length
  /-- `23 <= T`. -/
  total_ge : 23 ≤ V.length
  /-- `T <= MAX_FRAME_LEN`. -/
  total_le : V.length ≤ cfg.maxFrameLen
  /-- The slave address matches. -/
  addr : byteAt V 19 = 0x32
  /-- The function code is one of the three. -/
  func : KnownFunc (byteAt V 20)
  /-- The CRC matches, or the policy is `FLAG`. -/
  crc : frameCrc cfg ctrl V = frameCrcField cfg V ∨ flagPolicy ctrl = true
  /-- The data section fits its layout. -/
  layout : LayoutOk ctrl (byteAt V 20) (V.length - 23)

end Sys2Proof.Machine
end

