-- ==== Sys2Proof/Certificates/Slice0/Obligations.lean ====
section
/-! DEFINITION. Obligations.lean: what is claimed of the model, each statement from the numbered rules of spec/ it names. -/

open Sys2Proof Sys2Proof.Machine

/-! ## Reset, the port and the step -/

/-- 10_state.md rule R38, both columns of its table: after power-on reset every element has its power-on value; SESSION_RESET
gives every element the same value but leaves `CTRL`. -/
def Obligations.ResetTableOfEveryElement : Prop :=
  (State.reset.buf = [] ∧ State.reset.ctrl = 0 ∧ State.reset.errValid = false ∧ State.reset.errCode = 0 ∧
    State.reset.errDetail = 0 ∧ State.reset.crcFlagged = false ∧ State.reset.resyncSeen = false ∧
    State.reset.frameCount = 0 ∧ State.reset.discardCount = 0) ∧
  ∀ s : State, ∃ t, exec .sessionReset s = .next t ∧
    t.buf = [] ∧ t.ctrl = s.ctrl ∧ t.errValid = false ∧ t.errCode = 0 ∧ t.errDetail = 0 ∧ t.crcFlagged = false ∧
    t.resyncSeen = false ∧ t.frameCount = 0 ∧ t.discardCount = 0

/-- 70_reset_and_hazards.md rule R260: power-on reset, at any time, sets every element to its power-on value and leaves the
configuration. That it is an input of the step, and keeps the host's own fields, is the model's choice (log entry 4). -/
def Obligations.PowerOnResetSetsEveryElement : Prop :=
  ∀ (s : State) (rest : List Input), s.port = .powerOnReset :: rest →
    step s = .next
      { cfg := s.cfg, buf := [], ctrl := 0, errValid := false, errCode := 0, errDetail := 0, crcFlagged := false,
        resyncSeen := false, frameCount := 0, discardCount := 0, port := rest, responses := s.responses }

/-- 44_control.md rule R213: SESSION_RESET completes in every state, clears everything but `CTRL`, and answers `ACK`. -/
def Obligations.SessionResetClearsAllButCtrl : Prop :=
  ∀ s : State, exec .sessionReset s = .next
    { cfg := s.cfg, buf := [], ctrl := s.ctrl, errValid := false, errCode := 0, errDetail := 0, crcFlagged := false,
      resyncSeen := false, frameCount := 0, discardCount := 0, port := s.port, responses := .ack :: s.responses }

/-- The spec's inference at 70_reset_and_hazards.md rule R261 (marked derived there): after power-on reset TRY_EXTRACT returns
`NEED_MORE`, ENCODE builds every legal request, and FEED accepts exactly `BUF_CAP` bytes before it returns `FULL`; for every
configuration. -/
def Obligations.ReadyAtOnceAfterPowerOn : Prop :=
  ∀ s : State,
    exec .tryExtract s.powerOn = .next (answered s.powerOn .needMore) ∧
    (∀ (func : Byte) (base arg : Half),
      func = 0x06 ∨ ((func = 0x03 ∨ func = 0x04) ∧ arg ≠ 0 ∧ arg.toNat ≤ s.cfg.maxCount ∧
        base.toNat + arg.toNat ≤ 0x10000) →
      ∃ F, exec (.encode func base arg) s.powerOn = .next (answered s.powerOn (.ok F))) ∧
    ∀ bytes : List Byte, bytes.length = s.cfg.bufCap →
      ∃ t, runInstrs (feeds bytes) s.powerOn = .next t ∧ t.buf = bytes ∧
        t.responses = List.replicate bytes.length .ack ++ s.responses ∧
        ∀ b, exec (.feed b) t = .next (answered t .full)

/-- 60_exceptions.md rule R245: with nothing issued the block holds its state. The empty port is the model's form of "between
commands" (log entry 2). -/
def Obligations.IdleBlockHoldsItsState : Prop := ∀ s : State, s.port = [] → step s = .next s

/-- A step runs the decoded command: it takes the oldest word of the port and is `exec` of what the word decodes to
(00_scope.md rule R14; the port is the model's, log entry 2). -/
def Obligations.StepRunsTheDecodedCommand : Prop :=
  ∀ (s : State) (w : Command) (rest : List Input) (i : Instr), s.port = .command w :: rest →
    decode s.cfg (.command w) = .ok i → step s = exec i { s with port := rest }

/-- 41_encoder.md rules R126 to R128: a request is ENCODE with its function code, so a step on that command word is `exec` of the
request. -/
def Obligations.RequestsRunAsEncode : Prop :=
  ∀ (s : State) (func : FuncCode) (base arg : Half) (rest : List Input),
    s.port = .command (commandFor (requestInstr func base arg)) :: rest →
    step s = exec (requestInstr func base arg) { s with port := rest } ∧
    step s = exec (.encode (funcByte func) base arg) { s with port := rest }

/-- A received frame runs as TRY_EXTRACT: in every state `exec` of it is `exec` of TRY_EXTRACT; and when the bytes at the head of
the buffer are an accepted frame, the step on TRY_EXTRACT's word is steps 5 to 7 of 43_decoder.md rule R170 on that frame. -/
def Obligations.ReceivedFramesRunAsTryExtract : Prop :=
  (∀ (s : State) (func : FuncCode) (fr : RxFrame), exec (receivedInstr func fr) s = exec .tryExtract s) ∧
  ∀ (s : State) (func : FuncCode) (fr : RxFrame) (rest : List Input),
    fr.wf s.cfg = true → s.errValid = false → receivedFrame s.cfg func fr <+: s.buf →
    s.port = .command 0x300000000000 :: rest →
    step s = exec (receivedInstr func fr) { s with port := rest } ∧
    step s = .next ({ s with port := rest }.decodeFrame func fr)

/-- 70_reset_and_hazards.md rule R266 and 44_control.md rule R216: the block answers every command at once and nothing traps:
every step and every instruction completes. -/
def Obligations.EveryStepCompletes : Prop :=
  (∀ s : State, ∃ t, step s = .next t) ∧ ∀ (i : Instr) (s : State), ∃ t, exec i s = .next t

/-! ## Encodings -/

/-- Words and frames written out from 95_test_vectors.md decode to what they stand for: one command of each kind, an ill-formed
word, a request and the three received frames. -/
def Obligations.SpecWordsDecode : Prop :=
  decodeCommand 0x100300200006 = .encode 0x03 0x0020 0x0006 ∧
  decodeCommand 0x200000000059 = .feed 0x59 ∧
  decodeCommand 0x300000000000 = .tryExtract ∧
  decodeCommand 0x400000000000 = .sessionReset ∧
  decodeCommand 0x500100000000 = .regRead 0x01 ∧
  decodeCommand 0x6000FFFFFFF5 = .regWrite 0x00 0xFFFFFFF5 ∧
  decodeCommand 0x1F0300200006 = .illegal 0x1F0300200006 ∧
  decode Config.default (.request
    [0x59, 0x59, 0x00, 0x01, 0x00, 0x15, 0x01, 0x02, 0x41, 0x42, 0x31, 0x32, 0x33, 0x34, 0x47, 0x35, 0x36, 0x37, 0x00, 0x32,
     0x03, 0x00, 0x20, 0x00, 0x06, 0xC8, 0xE1]) = .ok (.txReadHolding 0x0020 0x0006) ∧
  decode Config.default (.received
    [0x59, 0x59, 0x00, 0x01, 0x00, 0x19, 0x01, 0x02, 0x57, 0x46, 0x32, 0x31, 0x34, 0x35, 0x47, 0x30, 0x31, 0x32, 0x01, 0x32,
     0x03, 0x00, 0x20, 0x00, 0x02, 0x12, 0x34, 0xAB, 0xCD, 0x4A, 0x80]) =
    .ok (.rxReadHolding ⟨[0x57, 0x46, 0x32, 0x31, 0x34, 0x35, 0x47, 0x30, 0x31, 0x32], 0x01,
      [0x00, 0x20, 0x00, 0x02, 0x12, 0x34, 0xAB, 0xCD], 0x4A80⟩) ∧
  decode Config.default (.received
    [0x59, 0x59, 0x00, 0x01, 0x00, 0x17, 0x01, 0x02, 0x57, 0x46, 0x32, 0x31, 0x34, 0x35, 0x47, 0x30, 0x31, 0x32, 0x01, 0x32,
     0x04, 0x00, 0x00, 0x00, 0x01, 0x00, 0xFF, 0xDB, 0xE0]) =
    .ok (.rxReadInput ⟨[0x57, 0x46, 0x32, 0x31, 0x34, 0x35, 0x47, 0x30, 0x31, 0x32], 0x01,
      [0x00, 0x00, 0x00, 0x01, 0x00, 0xFF], 0xDBE0⟩) ∧
  decode Config.default (.received
    [0x59, 0x59, 0x00, 0x01, 0x00, 0x15, 0x01, 0x02, 0x57, 0x46, 0x32, 0x31, 0x34, 0x35, 0x47, 0x30, 0x31, 0x32, 0x01, 0x32,
     0x06, 0x00, 0x10, 0x12, 0x34, 0xA8, 0xC9]) =
    .ok (.rxWriteSingle ⟨[0x57, 0x46, 0x32, 0x31, 0x34, 0x35, 0x47, 0x30, 0x31, 0x32], 0x01,
      [0x00, 0x10, 0x12, 0x34], 0xA8C9⟩)

/-- Decode and encode agree, for every well-formed instruction of every configuration: commands, requests and received frames of
every length, with every operand at every value. -/
def Obligations.DecodeOfEncodeIsTheInstruction : Prop :=
  ∀ (cfg : Config) (i : Instr), i.wf cfg = true → decode cfg (encode cfg i) = .ok i

/-- The other direction for command words: every 48-bit word decodes to a well-formed instruction whose encoding is that word,
so no bit of a word is dropped. -/
def Obligations.EncodeOfDecodeIsTheWord : Prop :=
  ∀ (cfg : Config) (w : Command), (decodeCommand w).wf cfg = true ∧ encode cfg (decodeCommand w) = .command w

/-- 44_control.md rule R214: a word with `OP` in {0x0, 0x7 to 0xF} or with any reserved bit of 30_encoding.md rule R82 set is
answered `ILLEGAL` and changes nothing, an error latched or not. The second clause, that `exec` of the ILLEGAL row does the
same for EVERY word it holds, is the model's choice and no sentence of that rule (DESIGN CHOICE, log entry 18). -/
def Obligations.IllFormedWordsAnswerIllegal : Prop :=
  (∀ (s : State) (w : Command),
    (w.extractLsb' 44 4 = 0x0#4 ∨ 7 ≤ (w.extractLsb' 44 4).toNat ∨ w.extractLsb' 40 4 ≠ 0#4 ∨
      (w.extractLsb' 44 4 = 0x2#4 ∧ w.extractLsb' 8 32 ≠ 0#32) ∨
      (w.extractLsb' 44 4 = 0x3#4 ∧ w.extractLsb' 0 40 ≠ 0#40) ∨
      (w.extractLsb' 44 4 = 0x4#4 ∧ w.extractLsb' 0 40 ≠ 0#40) ∨
      (w.extractLsb' 44 4 = 0x5#4 ∧ w.extractLsb' 0 32 ≠ 0#32)) →
    exec (decodeCommand w) s = .next (answered s .illegal)) ∧
  ∀ (s : State) (w : Command), exec (.illegal w) s = .next (answered s .illegal)

/-! ## The encoder -/

/-- 41_encoder.md rules R120, R121: ENCODE completes in every state with exactly this answer, the checks in this order, and
changes nothing else. -/
def Obligations.EncodeAnswersInTheOrderOfItsChecks : Prop :=
  ∀ (s : State) (func : Byte) (base arg : Half),
    exec (.encode func base arg) s = .next (answered s
      (if ¬(func = 0x03 ∨ func = 0x04 ∨ func = 0x06) then .invalidRequest 0
      else if func ≠ 0x06 ∧ arg = 0 then .invalidRequest 1
      else if func ≠ 0x06 ∧ arg.toNat > s.cfg.maxCount then .invalidRequest 2
      else if func ≠ 0x06 ∧ base.toNat + arg.toNat > 0x10000 then .invalidRequest 3
      else .ok ([0x59, 0x59, 0x00, 0x01, 0x00, 0x15, 0x01, 0x02, 0x41, 0x42, 0x31, 0x32, 0x33, 0x34, 0x47, 0x35, 0x36, 0x37]
        ++ [s.cfg.txPad, 0x32, func] ++ w16 base ++ w16 arg
        ++ wcrc s.cfg.crcWireOrder (crc16 s.cfg ([func] ++ w16 base ++ w16 arg)))))

/-- The spec's inference at 41_encoder.md rule R122 (marked derived there): every frame ENCODE returns is 27 bytes long and
its `len` field is 21. -/
def Obligations.EncodedFramesAre27Bytes : Prop :=
  ∀ (s t : State) (func : Byte) (base arg : Half) (F : List Byte),
    exec (.encode func base arg) s = .next t → t.responses = .ok F :: s.responses →
    F.length = 27 ∧ slice F 4 6 = [0x00, 0x15] ∧ declaredTotal F = F.length

/-- 41_encoder.md rule R126: the read-holding-registers request completes in every state: the 27 bytes when the count and the
span are legal, else the detail of the first check that fails. -/
def Obligations.ReadHoldingRequestResult : Prop :=
  ∀ (s : State) (base count : Half),
    exec (.txReadHolding base count) s = .next (answered s
      (if count = 0 then .invalidRequest 1
      else if count.toNat > s.cfg.maxCount then .invalidRequest 2
      else if base.toNat + count.toNat > 0x10000 then .invalidRequest 3
      else .ok ([0x59, 0x59, 0x00, 0x01, 0x00, 0x15, 0x01, 0x02, 0x41, 0x42, 0x31, 0x32, 0x33, 0x34, 0x47, 0x35, 0x36, 0x37]
        ++ [s.cfg.txPad, 0x32, 0x03] ++ w16 base ++ w16 count
        ++ wcrc s.cfg.crcWireOrder (crc16 s.cfg ([0x03] ++ w16 base ++ w16 count)))))

/-- 41_encoder.md rule R127: the read-input-registers request, as rule R126 with function code `0x04`. -/
def Obligations.ReadInputRequestResult : Prop :=
  ∀ (s : State) (base count : Half),
    exec (.txReadInput base count) s = .next (answered s
      (if count = 0 then .invalidRequest 1
      else if count.toNat > s.cfg.maxCount then .invalidRequest 2
      else if base.toNat + count.toNat > 0x10000 then .invalidRequest 3
      else .ok ([0x59, 0x59, 0x00, 0x01, 0x00, 0x15, 0x01, 0x02, 0x41, 0x42, 0x31, 0x32, 0x33, 0x34, 0x47, 0x35, 0x36, 0x37]
        ++ [s.cfg.txPad, 0x32, 0x04] ++ w16 base ++ w16 count
        ++ wcrc s.cfg.crcWireOrder (crc16 s.cfg ([0x04] ++ w16 base ++ w16 count)))))

/-- 41_encoder.md rule R128: the write-single-register request is never refused: every register and every value is legal. -/
def Obligations.WriteSingleRequestResult : Prop :=
  ∀ (s : State) (reg value : Half),
    exec (.txWriteSingle reg value) s = .next (answered s
      (.ok ([0x59, 0x59, 0x00, 0x01, 0x00, 0x15, 0x01, 0x02, 0x41, 0x42, 0x31, 0x32, 0x33, 0x34, 0x47, 0x35, 0x36, 0x37]
        ++ [s.cfg.txPad, 0x32, 0x06] ++ w16 reg ++ w16 value
        ++ wcrc s.cfg.crcWireOrder (crc16 s.cfg ([0x06] ++ w16 reg ++ w16 value)))))

/-- 41_encoder.md rules R124, R125: ENCODE's answer is a function of the configuration and its operands alone, whatever the
state, a latched error included; and it writes no state element. -/
def Obligations.EncodeIsPure : Prop :=
  ∀ (cfg : Config) (func : Byte) (base arg : Half), ∃ r : Response, ∀ s : State, s.cfg = cfg →
    ∃ t, exec (.encode func base arg) s = .next t ∧ t.responses = r :: s.responses ∧ SameBlock s t ∧
      t.cfg = s.cfg ∧ t.port = s.port

/-! ## FEED -/

/-- 42_header_splitter.md rules R140, R142: FEED completes in every state, a latched error included (rule R141): it appends its
byte and answers `ACK`, or, on a full buffer, takes nothing and answers `FULL`. -/
def Obligations.FeedAppendsOrAnswersFull : Prop :=
  ∀ (s : State) (b : Byte),
    exec (.feed b) s = .next
      (if s.buf.length = s.cfg.bufCap then answered s .full
      else { s with buf := s.buf ++ [b], responses := .ack :: s.responses })

/-! ## TRY_EXTRACT, step by step -/

/-- 43_decoder.md rule R171: while an error is latched TRY_EXTRACT returns it again and changes no state. -/
def Obligations.LatchedErrorIsReturnedAgain : Prop :=
  ∀ s : State, s.errValid = true → exec .tryExtract s = .next (answered s (.error s.errCode s.errDetail))

/-- 43_decoder.md rule R172: fewer than 8 bytes, or a good header whose frame is not complete: `NEED_MORE`, nothing changed, in
either `RESYNC_MODE`. -/
def Obligations.NeedMoreChangesNothing : Prop :=
  ∀ s : State, s.errValid = false →
    (s.buf.length < 8 ∨ (GoodHeader s.buf ∧ 23 ≤ declaredTotal s.buf ∧ declaredTotal s.buf ≤ s.cfg.maxFrameLen ∧
      s.buf.length < declaredTotal s.buf)) →
    exec .tryExtract s = .next (answered s .needMore)

/-- 43_decoder.md rule R173: under `TERMINATE` a wrong sentinel raises `BadHeader`, detail 0 for `h1` and 1 for `h2`; no byte is
removed. -/
def Obligations.BadHeaderUnderTerminate : Prop :=
  ∀ s : State, s.errValid = false → s.ctrl.getLsbD 0 = false → 8 ≤ s.buf.length →
    (slice s.buf 0 4 ≠ [0x59, 0x59, 0x00, 0x01] → exec .tryExtract s = .next (withError s 1 0)) ∧
    (slice s.buf 0 4 = [0x59, 0x59, 0x00, 0x01] → slice s.buf 6 8 ≠ [0x01, 0x02] →
      exec .tryExtract s = .next (withError s 1 1))

/-- 43_decoder.md rule R174: under `SCAN` a bad header removes the head byte, counts it, sets `RESYNC_SEEN`, and the command
starts again at step 1; and with fewer than 8 bytes left, or at a position whose header matches, nothing is discarded. -/
def Obligations.SearchDiscardsOneByteAndStartsAgain : Prop :=
  ∀ s : State, s.errValid = false → s.ctrl.getLsbD 0 = true →
    (8 ≤ s.buf.length → ¬GoodHeader s.buf →
      exec .tryExtract s = exec .tryExtract
        { s with buf := s.buf.drop 1, discardCount := s.discardCount + 1, resyncSeen := true }) ∧
    (s.buf.length < 8 ∨ GoodHeader s.buf →
      ∃ t, exec .tryExtract s = .next t ∧ t.discardCount = s.discardCount ∧ t.resyncSeen = s.resyncSeen ∧
        t.responses ≠ .error 1 0 :: s.responses ∧ t.responses ≠ .error 1 1 :: s.responses)

/-- 43_decoder.md rule R175: a good header with `T > MAX_FRAME_LEN` raises `LengthOverflow`, with `T < 23` `MalformedFrame(0)`, at
once, whatever is buffered behind it, in either `RESYNC_MODE`; no byte is removed. -/
def Obligations.LengthOutOfBoundsIsRaisedAtOnce : Prop :=
  ∀ s : State, s.errValid = false → GoodHeader s.buf →
    (s.cfg.maxFrameLen < declaredTotal s.buf → exec .tryExtract s = .next (withError s 2 0)) ∧
    (declaredTotal s.buf < 23 → exec .tryExtract s = .next (withError s 6 0))

/-- 43_decoder.md rules R176, R177: a wrong slave address raises `UnknownFunction(1)`, whatever the function code; with the right
address an unknown function code raises `UnknownFunction(0)`. -/
def Obligations.AddressThenFunctionAreChecked : Prop :=
  ∀ (s : State) (F : List Byte), Candidate s F →
    (byteAt F 19 ≠ 0x32 → exec .tryExtract s = .next (withError s 3 1)) ∧
    (byteAt F 19 = 0x32 → ¬KnownFunc (byteAt F 20) → exec .tryExtract s = .next (withError s 3 0))

/-- 43_decoder.md rule R178: under `STRICT` a CRC mismatch over the bytes `RX_CRC_SCOPE` selects raises `ChecksumMismatch`;
no byte is removed. -/
def Obligations.StrictPolicyRaisesChecksumMismatch : Prop :=
  ∀ (s : State) (F : List Byte), Candidate s F → byteAt F 19 = 0x32 → KnownFunc (byteAt F 20) →
    s.ctrl.getLsbD 1 = false →
    crc16 s.cfg (if s.ctrl.getLsbD 2 then slice F 20 (F.length - 2) else slice F 8 (F.length - 2)) ≠
      rcrc s.cfg.crcWireOrder F (F.length - 2) →
    exec .tryExtract s = .next (withError s 4 0)

/-- 43_decoder.md rule R179: under `FLAG` a frame whose CRC does not match is parsed, emitted with `crc_ok = 0` and popped, and
`CRC_FLAGGED` is set. -/
def Obligations.FlagPolicyEmitsTheMismatchedFrame : Prop :=
  ∀ (s : State) (F : List Byte), Candidate s F → byteAt F 19 = 0x32 → KnownFunc (byteAt F 20) →
    s.ctrl.getLsbD 1 = true → frameCrc s.cfg s.ctrl F ≠ frameCrcField s.cfg F →
    LayoutOk s.ctrl (byteAt F 20) (F.length - 23) →
    ∃ t, exec .tryExtract s = .next t ∧ t.responses = .frame (frameRecord s.cfg s.ctrl F) :: s.responses ∧
      (frameRecord s.cfg s.ctrl F).crcOk = false ∧ t.buf = s.buf.drop F.length ∧ t.crcFlagged = true ∧
      t.errValid = false ∧ t.frameCount = s.frameCount + 1

/-- 43_decoder.md rule R183: a data section that does not fit its function's layout raises `MalformedFrame(1)`, after the CRC
step. -/
def Obligations.BadLayoutIsRaisedAfterTheCrc : Prop :=
  ∀ (s : State) (F : List Byte), Candidate s F → byteAt F 19 = 0x32 → KnownFunc (byteAt F 20) →
    ¬LayoutOk s.ctrl (byteAt F 20) (F.length - 23) →
    (frameCrc s.cfg s.ctrl F = frameCrcField s.cfg F ∨ s.ctrl.getLsbD 1 = true →
      exec .tryExtract s = .next (withError s 6 1)) ∧
    (frameCrc s.cfg s.ctrl F ≠ frameCrcField s.cfg F → s.ctrl.getLsbD 1 = false →
      exec .tryExtract s = .next (withError s 4 0))

/-- 43_decoder.md rules R184, R185: a frame that passes every check is emitted with every field at its offset in the frame, its
`T` bytes leave the buffer, `FRAME_COUNT` counts it, `CRC_FLAGGED` is set if the CRC did not match, and nothing else changes. -/
def Obligations.EmissionFillsTheRecordAndPopsTheFrame : Prop :=
  ∀ (s : State) (F : List Byte), Candidate s F → byteAt F 19 = 0x32 → KnownFunc (byteAt F 20) →
    (frameCrc s.cfg s.ctrl F = frameCrcField s.cfg F ∨ flagPolicy s.ctrl = true) →
    LayoutOk s.ctrl (byteAt F 20) (F.length - 23) →
    23 ≤ F.length ∧
    exec .tryExtract s = .next
      { s with
        buf := s.buf.drop F.length
        frameCount := s.frameCount + 1
        crcFlagged := s.crcFlagged || !(frameCrc s.cfg s.ctrl F == frameCrcField s.cfg F)
        responses := .frame (frameRecord s.cfg s.ctrl F) :: s.responses }

/-- 43_decoder.md rule R180: a read-holding-registers frame at the head of the buffer: what it decodes to under each layout, when
its layout is wrong, and what a CRC mismatch does under `STRICT`. -/
def Obligations.ReadHoldingFrameResult : Prop :=
  ∀ (s : State) (fr : RxFrame), s.errValid = false → fr.wf s.cfg = true →
    receivedFrame s.cfg .readHolding fr <+: s.buf →
    ∀ crc : Half,
      crc = crc16 s.cfg (if s.ctrl.getLsbD 2 then [0x03] ++ fr.data else fr.serial ++ [fr.pad, 0x32, 0x03] ++ fr.data) →
    (crc ≠ fr.crc → s.ctrl.getLsbD 1 = false → exec (.rxReadHolding fr) s = .next (withError s 4 0)) ∧
    (crc = fr.crc ∨ s.ctrl.getLsbD 1 = true →
      (s.ctrl.getLsbD 3 = false → 4 ≤ fr.data.length → fr.data.length % 2 = 0 →
        exec (.rxReadHolding fr) s = .next (withFrame s (23 + fr.data.length)
          { func := 0x03, base := some (be16 fr.data 0), arg := be16 fr.data 2,
            regs := (List.range ((fr.data.length - 4) / 2)).map fun k => be16 fr.data (4 + 2 * k),
            data := fr.data, serial := fr.serial, pad := fr.pad, crcRx := fr.crc, crcCalc := crc,
            crcOk := crc == fr.crc })) ∧
      (s.ctrl.getLsbD 3 = true → fr.data.length % 2 = 0 →
        exec (.rxReadHolding fr) s = .next (withFrame s (23 + fr.data.length)
          { func := 0x03, base := none, arg := BitVec.ofNat 16 (fr.data.length / 2),
            regs := (List.range (fr.data.length / 2)).map fun k => be16 fr.data (2 * k),
            data := fr.data, serial := fr.serial, pad := fr.pad, crcRx := fr.crc, crcCalc := crc,
            crcOk := crc == fr.crc })) ∧
      (fr.data.length % 2 = 1 ∨ (s.ctrl.getLsbD 3 = false ∧ fr.data.length < 4) →
        exec (.rxReadHolding fr) s = .next (withError s 6 1)))

/-- 43_decoder.md rule R181: a read-input-registers frame, parsed as rule R180 parses, with function code `0x04`. -/
def Obligations.ReadInputFrameResult : Prop :=
  ∀ (s : State) (fr : RxFrame), s.errValid = false → fr.wf s.cfg = true →
    receivedFrame s.cfg .readInput fr <+: s.buf →
    ∀ crc : Half,
      crc = crc16 s.cfg (if s.ctrl.getLsbD 2 then [0x04] ++ fr.data else fr.serial ++ [fr.pad, 0x32, 0x04] ++ fr.data) →
    (crc ≠ fr.crc → s.ctrl.getLsbD 1 = false → exec (.rxReadInput fr) s = .next (withError s 4 0)) ∧
    (crc = fr.crc ∨ s.ctrl.getLsbD 1 = true →
      (s.ctrl.getLsbD 3 = false → 4 ≤ fr.data.length → fr.data.length % 2 = 0 →
        exec (.rxReadInput fr) s = .next (withFrame s (23 + fr.data.length)
          { func := 0x04, base := some (be16 fr.data 0), arg := be16 fr.data 2,
            regs := (List.range ((fr.data.length - 4) / 2)).map fun k => be16 fr.data (4 + 2 * k),
            data := fr.data, serial := fr.serial, pad := fr.pad, crcRx := fr.crc, crcCalc := crc,
            crcOk := crc == fr.crc })) ∧
      (s.ctrl.getLsbD 3 = true → fr.data.length % 2 = 0 →
        exec (.rxReadInput fr) s = .next (withFrame s (23 + fr.data.length)
          { func := 0x04, base := none, arg := BitVec.ofNat 16 (fr.data.length / 2),
            regs := (List.range (fr.data.length / 2)).map fun k => be16 fr.data (2 * k),
            data := fr.data, serial := fr.serial, pad := fr.pad, crcRx := fr.crc, crcCalc := crc,
            crcOk := crc == fr.crc })) ∧
      (fr.data.length % 2 = 1 ∨ (s.ctrl.getLsbD 3 = false ∧ fr.data.length < 4) →
        exec (.rxReadInput fr) s = .next (withError s 6 1)))

/-- 43_decoder.md rule R182: a write-single-register frame: exactly four data bytes, register then value, in either layout. -/
def Obligations.WriteSingleFrameResult : Prop :=
  ∀ (s : State) (fr : RxFrame), s.errValid = false → fr.wf s.cfg = true →
    receivedFrame s.cfg .writeSingle fr <+: s.buf →
    ∀ crc : Half,
      crc = crc16 s.cfg (if s.ctrl.getLsbD 2 then [0x06] ++ fr.data else fr.serial ++ [fr.pad, 0x32, 0x06] ++ fr.data) →
    (crc ≠ fr.crc → s.ctrl.getLsbD 1 = false → exec (.rxWriteSingle fr) s = .next (withError s 4 0)) ∧
    (crc = fr.crc ∨ s.ctrl.getLsbD 1 = true →
      (fr.data.length = 4 →
        exec (.rxWriteSingle fr) s = .next (withFrame s 27
          { func := 0x06, base := some (be16 fr.data 0), arg := be16 fr.data 2, regs := [],
            data := fr.data, serial := fr.serial, pad := fr.pad, crcRx := fr.crc, crcCalc := crc,
            crcOk := crc == fr.crc })) ∧
      (fr.data.length ≠ 4 → exec (.rxWriteSingle fr) s = .next (withError s 6 1)))

/-! ## Errors -/

/-- 60_exceptions.md rule R236: an error newly latched by TRY_EXTRACT: the latch holds the code and detail it returned, and
nothing else changes but the discards the same command made, of which `TERMINATE` makes none. -/
def Obligations.ErrorEntryChangesOnlyTheLatch : Prop :=
  ∀ s t : State, s.errValid = false → exec .tryExtract s = .next t → t.errValid = true →
    ∃ (n : Nat) (code detail : Nibble), t = withError (withDiscards s n) code detail ∧ (s.ctrl.getLsbD 0 = false → n = 0)

/-- 43_decoder.md rule R170, the whole command, in the order of the table of 60_exceptions.md section 2: TRY_EXTRACT completes in
every state, and its answer is that of the first condition that holds; a bad header under `SCAN` discards a byte and the command
starts again. -/
def Obligations.FirstConditionOfTheTableIsReported : Prop :=
  ∀ s : State,
    if s.errValid = true then exec .tryExtract s = .next (answered s (.error s.errCode s.errDetail))
    else if s.buf.length < 8 then exec .tryExtract s = .next (answered s .needMore)
    else if slice s.buf 0 4 ≠ [0x59, 0x59, 0x00, 0x01] then
      if s.ctrl.getLsbD 0 then exec .tryExtract s = exec .tryExtract (withDiscards s 1)
      else exec .tryExtract s = .next (withError s 1 0)
    else if slice s.buf 6 8 ≠ [0x01, 0x02] then
      if s.ctrl.getLsbD 0 then exec .tryExtract s = exec .tryExtract (withDiscards s 1)
      else exec .tryExtract s = .next (withError s 1 1)
    else if s.cfg.maxFrameLen < declaredTotal s.buf then exec .tryExtract s = .next (withError s 2 0)
    else if declaredTotal s.buf < 23 then exec .tryExtract s = .next (withError s 6 0)
    else if s.buf.length < declaredTotal s.buf then exec .tryExtract s = .next (answered s .needMore)
    else
      ∀ F, F = s.buf.take (declaredTotal s.buf) →
        if byteAt F 19 ≠ 0x32 then exec .tryExtract s = .next (withError s 3 1)
        else if ¬(byteAt F 20 = 0x03 ∨ byteAt F 20 = 0x04 ∨ byteAt F 20 = 0x06) then
          exec .tryExtract s = .next (withError s 3 0)
        else if frameCrc s.cfg s.ctrl F ≠ frameCrcField s.cfg F ∧ s.ctrl.getLsbD 1 = false then
          exec .tryExtract s = .next (withError s 4 0)
        else
          (¬LayoutOk s.ctrl (byteAt F 20) (F.length - 23) → exec .tryExtract s = .next (withError s 6 1)) ∧
          (LayoutOk s.ctrl (byteAt F 20) (F.length - 23) →
            exec .tryExtract s = .next (withFrame s F.length (frameRecord s.cfg s.ctrl F)))

/-- 60_exceptions.md rule R238: from a latched error, any sequence of instructions without SESSION_RESET leaves the latch as it
is and removes no byte: the latch is never overwritten and FEED only appends. -/
def Obligations.OnlySessionResetLeavesALatchedError : Prop :=
  ∀ (is : List Instr) (s : State), s.errValid = true → .sessionReset ∉ is →
    ∃ t, runInstrs is s = .next t ∧ t.errValid = true ∧ t.errCode = s.errCode ∧ t.errDetail = s.errDetail ∧ s.buf <+: t.buf

/-! ## Registers -/

/-- 44_control.md rule R210: REG_READ completes in every state with the register's value, or `ILLEGAL` for a reserved index, and
has no side effect; and in a state that meets the invariant both codes read 0 while no error is latched. -/
def Obligations.RegReadAnswersAndChangesNothing : Prop :=
  (∀ (s : State) (idx : Byte),
    exec (.regRead idx) s = .next (answered s
      (if idx = 0x00 then .value s.ctrl
      else if idx = 0x01 then
        .value (BitVec.ofNat 32 s.buf.length <<< 16 ||| (if s.resyncSeen then 1 else 0) <<< 13
          ||| (if s.crcFlagged then 1 else 0) <<< 12 ||| s.errDetail.setWidth 32 <<< 8 ||| s.errCode.setWidth 32 <<< 4
          ||| (if s.errValid then 1 else 0))
      else if idx = 0x02 then .value s.frameCount
      else if idx = 0x03 then .value s.discardCount
      else .illegal))) ∧
  ∀ s : State, s.Inv → s.errValid = false → ∃ v : Word32,
    exec (.regRead 0x01) s = .next (answered s (.value v)) ∧ v.extractLsb' 4 8 = 0#8

/-- 10_state.md rule R25: every bit of `STATUS`, for a state that meets the invariant; and a write to it is refused. -/
def Obligations.StatusBitsAreAssembledFromTheState : Prop :=
  ∀ s : State, s.Inv →
    (∃ v : Word32, exec (.regRead 0x01) s = .next (answered s (.value v)) ∧
      v.getLsbD 0 = s.errValid ∧ v.extractLsb' 1 3 = 0#3 ∧ v.extractLsb' 4 4 = s.errCode ∧ v.extractLsb' 8 4 = s.errDetail ∧
      v.getLsbD 12 = s.crcFlagged ∧ v.getLsbD 13 = s.resyncSeen ∧ v.extractLsb' 14 2 = 0#2 ∧
      (v.extractLsb' 16 16).toNat = s.buf.length ∧
      (s.errValid = false → v.extractLsb' 4 4 = 0#4 ∧ v.extractLsb' 8 4 = 0#4)) ∧
    ∀ value : Word32, exec (.regWrite 0x01 value) s = .next (answered s .illegal)

/-- 44_control.md rule R211 and 10_state.md rule R32: REG_WRITE completes in every state: index 0 stores the low four bits
of its value in `CTRL`; every other index answers `ILLEGAL` and changes nothing; and a read of `CTRL` gives back the stored
value, bits 31:4 zero. -/
def Obligations.RegWriteStoresCtrlOnly : Prop :=
  (∀ (s : State) (idx : Byte) (value : Word32),
    exec (.regWrite idx value) s = .next
      (if idx = 0x00 then { s with ctrl := value &&& 0x0000000F, responses := .ack :: s.responses }
      else answered s .illegal)) ∧
  ∀ (s : State) (value : Word32), ∃ t, exec (.regWrite 0x00 value) s = .next t ∧
    exec (.regRead 0x00) t = .next (answered t (.value (0#28 ++ value.extractLsb' 0 4)))

/-! ## The whole machine -/

/-- The reset state meets the invariant. -/
def Obligations.ResetMeetsTheInvariant : Prop := State.reset.Inv

/-- Every step keeps the invariant, from every state that meets it: the buffer within its capacity, the reserved `CTRL` bits 0,
the latch coherent, a counted discard seen (10_state.md rules R22, R25, R26, R28, R30, R32). -/
def Obligations.EveryStepKeepsTheInvariant : Prop :=
  ∀ s t : State, s.Inv → step s = .next t → t.Inv

/-- 30_encoding.md rule R84's table: each command returns exactly one response, and one of those its row lists. The table has
no row for the frames of the opcode table: that a request answers as ENCODE is log entry 6 (DEDUCED), that a received frame
answers as TRY_EXTRACT in every state is log entry 7 (DEDUCED), that the ILLEGAL row answers so for any word is log entry 18
(DESIGN CHOICE). -/
def Obligations.OneResponsePerCommandOfItsRow : Prop :=
  ∀ (i : Instr) (s : State), ∃ t r, exec i s = .next t ∧ t.responses = r :: s.responses ∧
    match i with
    | .encode _ _ _ | .txReadHolding _ _ | .txReadInput _ _ | .txWriteSingle _ _ =>
      (∃ F, r = .ok F ∧ F.length = 27) ∨ ∃ d, r = .invalidRequest d
    | .feed _ => r = .ack ∨ r = .full
    | .tryExtract | .rxReadHolding _ | .rxReadInput _ | .rxWriteSingle _ =>
      r = .needMore ∨ (∃ df, r = .frame df) ∨ ∃ code detail, r = .error code detail
    | .sessionReset => r = .ack
    | .regRead _ => (∃ v, r = .value v) ∨ r = .illegal
    | .regWrite _ _ => r = .ack ∨ r = .illegal
    | .illegal _ => r = .illegal

/-- 10_state.md rule R22, its column "written by", and rule R36: an element changes only under a command that the table lets
write it; the configuration changes under none. TRY_EXTRACT stands for the received frames it runs. -/
def Obligations.ElementsAreWrittenOnlyByTheirCommands : Prop :=
  ∀ (i : Instr) (s t : State), exec i s = .next t →
    let extracts : Prop := i = .tryExtract ∨ ∃ func fr, i = receivedInstr func fr
    t.cfg = s.cfg ∧ t.port = s.port ∧
    (t.ctrl ≠ s.ctrl → ∃ idx value, i = .regWrite idx value) ∧
    (t.buf ≠ s.buf → (∃ b, i = .feed b) ∨ extracts ∨ i = .sessionReset) ∧
    ((t.errValid ≠ s.errValid ∨ t.errCode ≠ s.errCode ∨ t.errDetail ≠ s.errDetail ∨ t.crcFlagged ≠ s.crcFlagged ∨
      t.resyncSeen ≠ s.resyncSeen ∨ t.frameCount ≠ s.frameCount ∨ t.discardCount ≠ s.discardCount) →
      extracts ∨ i = .sessionReset)

/-- The spec's inferences at 42_header_splitter.md rule R149 and 43_decoder.md rule R187 (marked derived there): bytes leave
`BUF` in three ways: SESSION_RESET takes all; TRY_EXTRACT takes `d` discards, at most `BufLen() - 7` and none under
`TERMINATE`, counted in `DISCARD_COUNT`, and the bytes of the frame it emits, `23 + D`, if it emits one; no other command
takes any. -/
def Obligations.BytesLeaveInThreeWays : Prop :=
  ∀ (i : Instr) (s t : State), exec i s = .next t →
    (i = .sessionReset ∧ t.buf = []) ∨
    ((i = .tryExtract ∨ ∃ func fr, i = receivedInstr func fr) ∧
      ∃ d total, d ≤ s.buf.length - 7 ∧ t.buf = s.buf.drop (d + total) ∧ d + total ≤ s.buf.length ∧
        t.discardCount = s.discardCount + BitVec.ofNat 32 d ∧ (s.ctrl.getLsbD 0 = false → d = 0) ∧
        ((total = 0 ∧ ∀ df, t.responses ≠ .frame df :: s.responses) ∨
          ∃ df, t.responses = .frame df :: s.responses ∧ total = 23 + df.data.length)) ∨
    (i ≠ .sessionReset ∧ i ≠ .tryExtract ∧ s.buf <+: t.buf)

/-- 10_state.md rules R29, R30: `FRAME_COUNT` rises by one, modulo 2^32, exactly when a frame is emitted; SESSION_RESET sets both
counters to 0; without a discard `DISCARD_COUNT` is kept. -/
def Obligations.FrameCountCountsEmittedFrames : Prop :=
  ∀ (i : Instr) (s t : State), exec i s = .next t →
    (i = .sessionReset → t.frameCount = 0 ∧ t.discardCount = 0) ∧
    (i ≠ .sessionReset →
      ((∃ df, t.responses = .frame df :: s.responses) → t.frameCount.toNat = (s.frameCount.toNat + 1) % 2 ^ 32) ∧
      ((∀ df, t.responses ≠ .frame df :: s.responses) → t.frameCount = s.frameCount) ∧
      (t.resyncSeen = false → t.discardCount = s.discardCount))

/-- 10_state.md rules R27, R28: the sticky bits: but for SESSION_RESET, which clears both, `CRC_FLAGGED` becomes set exactly
when a frame is emitted whose CRC did not match, and a set bit stays set. -/
def Obligations.StickyBitsAreSetAndStay : Prop :=
  ∀ (i : Instr) (s t : State), exec i s = .next t →
    (i = .sessionReset → t.crcFlagged = false ∧ t.resyncSeen = false) ∧
    (i ≠ .sessionReset →
      (t.crcFlagged = true ↔ s.crcFlagged = true ∨ ∃ df, t.responses = .frame df :: s.responses ∧ df.crcCalc ≠ df.crcRx) ∧
      (s.resyncSeen = true → t.resyncSeen = true) ∧
      (s.resyncSeen = false → t.resyncSeen = true →
        s.ctrl.getLsbD 0 = true ∧ 8 ≤ s.buf.length ∧ ¬GoodHeader s.buf ∧ s.errValid = false))

/-- The spec's inference at 43_decoder.md rule R188 (marked derived there): TRY_EXTRACT is a function of `BUF`, `CTRL` and
the latch alone: two instances that agree on them return the same response and agree on them afterwards, whatever their
counters, sticky bits and earlier responses. -/
def Obligations.TryExtractReadsOnlyItsInputs : Prop :=
  ∀ s s' : State, SameInputs s s' →
    ∃ t t' r, exec .tryExtract s = .next t ∧ exec .tryExtract s' = .next t' ∧
      t.responses = r :: s.responses ∧ t'.responses = r :: s'.responses ∧ SameInputs t t'

/-- 42_header_splitter.md rules R147, R150: bytes behind the frame a TRY_EXTRACT emits are not read and stay: with any bytes `R`
behind the buffer the same frame is emitted and `R` is still there. -/
def Obligations.BytesBehindTheFrameAreNotRead : Prop :=
  ∀ (s t : State) (df : DecodedFrame) (R : List Byte),
    exec .tryExtract s = .next t → t.responses = .frame df :: s.responses →
    exec .tryExtract { s with buf := s.buf ++ R } = .next { t with buf := t.buf ++ R }

/-- The spec's inference at 43_decoder.md rule R189 (marked derived there): a valid frame split at any byte boundary over two
reads: `NEED_MORE` after a proper prefix, then the frame, with no error and no byte lost, in either `RESYNC_MODE`. The split
with `B` empty, where the first TRY_EXTRACT gives the frame, is EmissionFillsTheRecordAndPopsTheFrame. -/
def Obligations.SplitFramesDecodeOnce : Prop :=
  ∀ (s : State) (V A B : List Byte), s.errValid = false → s.buf = [] → ValidFrame s.cfg s.ctrl V → V = A ++ B → B ≠ [] →
    runInstrs (feeds A ++ [.tryExtract] ++ feeds B ++ [.tryExtract]) s = .next
      { s with
        frameCount := s.frameCount + 1
        crcFlagged := s.crcFlagged || !(frameRecord s.cfg s.ctrl V).crcOk
        responses := .frame (frameRecord s.cfg s.ctrl V) ::
          (List.replicate B.length .ack ++ .needMore :: (List.replicate A.length .ack ++ s.responses)) }

/-- The spec's inference at 43_decoder.md rule R190 (marked derived there): two valid frames in one read, within the capacity
of the buffer: `DRAIN` gives both in order, then `NEED_MORE`, within the bound of 30_encoding.md rule R87. -/
def Obligations.TwoFramesDecodeInOrder : Prop :=
  ∀ (s : State) (V W : List Byte), s.errValid = false → s.buf = [] → ValidFrame s.cfg s.ctrl V → ValidFrame s.cfg s.ctrl W →
    V.length + W.length ≤ s.cfg.bufCap →
    ∃ u, runInstrs (feeds (V ++ W)) s = .next u ∧ u.buf = V ++ W ∧
      drain (drainBound u) u = .next
        { u with
          buf := []
          frameCount := s.frameCount + 2
          crcFlagged := s.crcFlagged || !(frameRecord s.cfg s.ctrl V).crcOk || !(frameRecord s.cfg s.ctrl W).crcOk
          responses := .needMore :: .frame (frameRecord s.cfg s.ctrl W) :: .frame (frameRecord s.cfg s.ctrl V) :: u.responses }

/-- The spec's inference at 43_decoder.md rule R194 (marked derived there): under `TERMINATE`, a valid frame with any one
byte of `h1` or `h2` replaced by a different value raises `BadHeader`. -/
def Obligations.ChangedSentinelByteIsBadHeader : Prop :=
  ∀ (s : State) (V : List Byte) (k : Nat) (v : Byte), s.errValid = false → s.ctrl.getLsbD 0 = false →
    ValidFrame s.cfg s.ctrl V → s.buf = V.set k v → v ≠ byteAt V k →
    (k < 4 → exec .tryExtract s = .next (withError s 1 0)) ∧
    (k = 6 ∨ k = 7 → exec .tryExtract s = .next (withError s 1 1))

/-- The spec's inference at 43_decoder.md rule R195 (marked derived there): under `STRICT`, with a polynomial whose bit 0 is
1, a valid frame with any one byte of the covered region or of the CRC field replaced by a different value raises
`ChecksumMismatch`, but for `addr` and an unknown `func`, whose errors come first. -/
def Obligations.ChangedCoveredByteIsDetected : Prop :=
  ∀ (s : State) (V : List Byte) (k : Nat) (v : Byte), s.errValid = false → s.ctrl.getLsbD 1 = false →
    s.cfg.crcPoly.getLsbD 0 = true → ValidFrame s.cfg s.ctrl V → s.buf = V.set k v → v ≠ byteAt V k →
    (if s.ctrl.getLsbD 2 then 20 else 8) ≤ k → k < V.length →
    exec .tryExtract s = .next
      (if k = 19 then withError s 3 1
      else if k = 20 ∧ ¬(v = 0x03 ∨ v = 0x04 ∨ v = 0x06) then withError s 3 0
      else withError s 4 0)

/-- The spec's inference at 70_reset_and_hazards.md rule R272 (marked derived there): on a full buffer with no error latched,
TRY_EXTRACT latches an error or removes a byte. -/
def Obligations.FullBufferMakesProgress : Prop :=
  ∀ s : State, s.errValid = false → s.buf.length = s.cfg.bufCap →
    ∃ t, exec .tryExtract s = .next t ∧ (t.errValid = true ∨ t.buf.length < s.buf.length)

/-- The spec's inference at 43_decoder.md rule R193 (marked derived there): the loopback round trip, for every request ENCODE
accepts, with `FUNC_DATA` and `BASE_COUNT_VALUES` in any `RESYNC_MODE` and `CRC_POLICY`: the 27 bytes fed back decode to the
operands; and with the default configuration under `FULL_INNER` and `STRICT` every such frame fails the CRC check. -/
def Obligations.LoopbackRecoversTheRequest : Prop :=
  ∀ (s t : State) (func : Byte) (base arg : Half) (F : List Byte),
    exec (.encode func base arg) s = .next t → t.responses = .ok F :: s.responses →
    s.errValid = false → s.buf = [] →
    (s.ctrl.getLsbD 2 = true → s.ctrl.getLsbD 3 = false →
      ∃ u df, runInstrs (feeds F ++ [.tryExtract]) s = .next u ∧ u.responses.head? = some (.frame df) ∧ u.buf = [] ∧
        df.func = func ∧ df.base = some base ∧ df.arg = arg ∧ df.regs = [] ∧ df.crcOk = true) ∧
    (s.cfg = Config.default → s.ctrl.getLsbD 1 = false → s.ctrl.getLsbD 2 = false →
      ∃ u, runInstrs (feeds F ++ [.tryExtract]) s = .next u ∧ u.responses.head? = some (.error 4 0) ∧ u.buf = F)

/-- 30_encoding.md rule R87, its line on DRAIN: DRAIN ends within `floor(BUF_LEN / 23) + 1` commands: its last response is no
`FRAME`. -/
def Obligations.DrainEndsWithinItsBound : Prop :=
  ∀ s : State, ∃ t, drain (drainBound s) s = .next t ∧ t.gotFrame = false

/-! ## The CRC -/

/-- The general knowledge the spec names at 40_crc16.md rule R107: for a polynomial whose bit 0 is 1, two byte sequences of
equal length that differ in exactly one byte have different CRCs. -/
def Obligations.CrcDetectsEverySingleByteChange : Prop :=
  ∀ (cfg : Config) (B : List Byte) (k : Nat) (v : Byte), cfg.crcPoly.getLsbD 0 = true → k < B.length → v ≠ byteAt B k →
    crc16 cfg (B.set k v) ≠ crc16 cfg B

/-- The general knowledge the spec names at 40_crc16.md rule R102: with the default parameters CRC16 is the shift-right form,
on every byte sequence. -/
def Obligations.CrcEqualsItsShiftRightForm : Prop := ∀ B : List Byte, crc16 Config.default B = crc16Right B

/-- 40_crc16.md rule R103: the CRC field's bytes in each wire order, and reading them back gives the value. -/
def Obligations.CrcFieldIsReadAsWritten : Prop :=
  (∀ v : Half, wcrc .be v = [v.extractLsb' 8 8, v.extractLsb' 0 8] ∧ wcrc .le v = [v.extractLsb' 0 8, v.extractLsb' 8 8]) ∧
  ∀ (order : ByteOrder) (v : Half) (A B : List Byte), rcrc order (A ++ wcrc order v ++ B) A.length = v

/-- The general knowledge the spec names at 40_crc16.md rule R108: the published check value of CRC-16/MODBUS. -/
def Obligations.CrcCheckValue : Prop :=
  crc16 Config.default [0x31, 0x32, 0x33, 0x34, 0x35, 0x36, 0x37, 0x38, 0x39] = 0x4B37
end

