-- ==== Sys2Proof/Laws/Header.lean ====
section
/-! SUPPORT. Laws/Header.lean: what the header parser and the sentinel search can do, said once: each class of `headerParse` by
its condition, bytes behind the header, and the bounds of `junkLength`. -/

namespace Sys2Proof.Machine

/-! ### Slices -/

theorem slice_length (B : List Byte) (i j : Nat) : (slice B i j).length = min (j - i) (B.length - i) := by
  simp [slice]

/-- A slice that ends inside `B` does not see what is behind `B`. -/
theorem slice_append_left (B R : List Byte) (i j : Nat) (h : j ≤ B.length) : slice (B ++ R) i j = slice B i j := by
  unfold slice
  by_cases hij : i ≤ B.length
  · rw [List.drop_append_of_le_length hij, List.take_append_of_le_length]
    simp only [List.length_drop]; omega
  · simp [show j - i = 0 by omega]

theorem byteAt_append_left (B R : List Byte) (i : Nat) (h : i < B.length) : byteAt (B ++ R) i = byteAt B i := by
  simp [byteAt, List.getD_eq_getElem?_getD, List.getElem?_append_left h]

theorem be16_append_left (B R : List Byte) (i : Nat) (h : i + 1 < B.length) : be16 (B ++ R) i = be16 B i := by
  simp [be16, byteAt_append_left B R i (by omega), byteAt_append_left B R (i + 1) h]

theorem totalLength_append_left (B R : List Byte) (h : 8 ≤ B.length) : totalLength (B ++ R) = totalLength B := by
  simp [totalLength, be16_append_left B R 4 (by omega)]

/-- `T = be16(len) + 6` (30_encoding.md rule R76). -/
theorem totalLength_eq (B : List Byte) : totalLength B = (be16 B 4).toNat + 6 := rfl

/-! ### The classes of the header parser -/

theorem headerParse_short_iff (cfg : Config) (B : List Byte) : headerParse cfg B = .short ↔ B.length < 8 := by
  unfold headerParse
  have : protocol.hdrLen = 8 := rfl
  rw [this]
  split_ifs <;> simp_all

theorem headerParse_isBad_iff (cfg : Config) (B : List Byte) :
    (headerParse cfg B).isBad = true ↔ 8 ≤ B.length ∧ (slice B 0 4 ≠ protocol.h1 ∨ slice B 6 8 ≠ protocol.h2) := by
  unfold headerParse
  have : protocol.hdrLen = 8 := rfl
  rw [this]
  split_ifs <;> simp_all [HeaderClass.isBad]

/-- Everything a complete frame at the head says (42_header_splitter.md rules R143, R147). -/
theorem headerParse_complete_iff (cfg : Config) (B : List Byte) (n : Nat) :
    headerParse cfg B = .complete n ↔
      8 ≤ B.length ∧ slice B 0 4 = protocol.h1 ∧ slice B 6 8 = protocol.h2 ∧ n = totalLength B ∧
      23 ≤ n ∧ n ≤ cfg.maxFrameLen ∧ n ≤ B.length := by
  unfold headerParse
  have h8 : protocol.hdrLen = 8 := rfl
  have h23 : minFrameLen = 23 := rfl
  rw [h8, h23]
  split_ifs <;> simp_all; omega

/-- Bytes behind a complete frame do not change its class. -/
theorem headerParse_append_complete (cfg : Config) (B R : List Byte) (n : Nat) (h : headerParse cfg B = .complete n) :
    headerParse cfg (B ++ R) = .complete n := by
  rw [headerParse_complete_iff] at h ⊢
  obtain ⟨h8, h1, h2, hn, hlo, hhi, hle⟩ := h
  rw [slice_append_left B R 0 4 (by omega), slice_append_left B R 6 8 h8, totalLength_append_left B R h8]
  exact ⟨by simp; omega, h1, h2, hn, hlo, hhi, by simp; omega⟩

/-- Bytes behind a bad header do not change that it is bad. -/
theorem headerParse_append_isBad (cfg : Config) (B R : List Byte) (h : 8 ≤ B.length) :
    (headerParse cfg (B ++ R)).isBad = (headerParse cfg B).isBad := by
  rw [Bool.eq_iff_iff, headerParse_isBad_iff, headerParse_isBad_iff, slice_append_left B R 0 4 (by omega),
    slice_append_left B R 6 8 h]
  simp; omega

/-! ### The sentinel search -/

/-- The search makes at most `BufLen() - 7` discards (43_decoder.md rule R187). -/
theorem junkLength_le (cfg : Config) (B : List Byte) : junkLength cfg B ≤ B.length - 7 := by
  induction B with
  | nil => simp [junkLength]
  | cons b B ih =>
    unfold junkLength
    split
    · next h => have := ((headerParse_isBad_iff cfg (b :: B)).1 h).1; simp at this ⊢; omega
    · omega

/-- The search stops where the header is not bad. -/
theorem junkLength_stops (cfg : Config) (B : List Byte) :
    (headerParse cfg (B.drop (junkLength cfg B))).isBad = false := by
  induction B with
  | nil => simp [junkLength, headerParse, protocol, HeaderClass.isBad]
  | cons b B ih =>
    unfold junkLength
    split
    · simpa using ih
    · next h => simpa using h

/-- Nothing is discarded where the header at the head is not bad. -/
theorem junkLength_of_good (cfg : Config) (B : List Byte) (h : (headerParse cfg B).isBad = false) :
    junkLength cfg B = 0 := by
  cases B with
  | nil => rfl
  | cons b B => simp [junkLength, h]

/-- A bad header costs one byte, and the search goes on behind it. -/
theorem junkLength_of_bad (cfg : Config) (B : List Byte) (h : (headerParse cfg B).isBad = true) :
    junkLength cfg B = junkLength cfg (B.drop 1) + 1 := by
  cases B with
  | nil => simp [headerParse, protocol, HeaderClass.isBad] at h
  | cons b B => simp [junkLength, h]

/-- Bytes behind a position where the search found 8 bytes do not move it. -/
theorem junkLength_append (cfg : Config) (B R : List Byte) (h : junkLength cfg B + 8 ≤ B.length) :
    junkLength cfg (B ++ R) = junkLength cfg B := by
  induction B with
  | nil => simp at h
  | cons b B ih =>
    have h8 : 8 ≤ (b :: B).length := by omega
    have hb := headerParse_append_isBad cfg (b :: B) R h8
    rw [List.cons_append] at hb
    rw [List.cons_append, junkLength, junkLength, hb]
    unfold junkLength at h
    split
    · next hbad => rw [if_pos hbad] at h; rw [ih (by simp at h; omega)]
    · rfl

end Sys2Proof.Machine
end

