-- ==== Sys2Proof/Laws/State.lean ====
section
/-! SUPPORT. Laws/State.lean: one lemma per field per update of the state, true by rfl and tagged simp, so that no later proof
unfolds a record update. -/

namespace Sys2Proof.Machine

variable (s : State)

/-! ### `State.respond` -/

@[simp] theorem State.respond_cfg (r : Response) : (s.respond r).cfg = s.cfg := rfl
@[simp] theorem State.respond_buf (r : Response) : (s.respond r).buf = s.buf := rfl
@[simp] theorem State.respond_ctrl (r : Response) : (s.respond r).ctrl = s.ctrl := rfl
@[simp] theorem State.respond_errValid (r : Response) : (s.respond r).errValid = s.errValid := rfl
@[simp] theorem State.respond_errCode (r : Response) : (s.respond r).errCode = s.errCode := rfl
@[simp] theorem State.respond_errDetail (r : Response) : (s.respond r).errDetail = s.errDetail := rfl
@[simp] theorem State.respond_crcFlagged (r : Response) : (s.respond r).crcFlagged = s.crcFlagged := rfl
@[simp] theorem State.respond_resyncSeen (r : Response) : (s.respond r).resyncSeen = s.resyncSeen := rfl
@[simp] theorem State.respond_frameCount (r : Response) : (s.respond r).frameCount = s.frameCount := rfl
@[simp] theorem State.respond_discardCount (r : Response) : (s.respond r).discardCount = s.discardCount := rfl
@[simp] theorem State.respond_port (r : Response) : (s.respond r).port = s.port := rfl
@[simp] theorem State.respond_responses (r : Response) : (s.respond r).responses = r :: s.responses := rfl

/-! ### `State.bufPush` -/

@[simp] theorem State.bufPush_cfg (b : Byte) : (s.bufPush b).cfg = s.cfg := rfl
@[simp] theorem State.bufPush_buf (b : Byte) : (s.bufPush b).buf = s.buf ++ [b] := rfl
@[simp] theorem State.bufPush_ctrl (b : Byte) : (s.bufPush b).ctrl = s.ctrl := rfl
@[simp] theorem State.bufPush_errValid (b : Byte) : (s.bufPush b).errValid = s.errValid := rfl
@[simp] theorem State.bufPush_errCode (b : Byte) : (s.bufPush b).errCode = s.errCode := rfl
@[simp] theorem State.bufPush_errDetail (b : Byte) : (s.bufPush b).errDetail = s.errDetail := rfl
@[simp] theorem State.bufPush_crcFlagged (b : Byte) : (s.bufPush b).crcFlagged = s.crcFlagged := rfl
@[simp] theorem State.bufPush_resyncSeen (b : Byte) : (s.bufPush b).resyncSeen = s.resyncSeen := rfl
@[simp] theorem State.bufPush_frameCount (b : Byte) : (s.bufPush b).frameCount = s.frameCount := rfl
@[simp] theorem State.bufPush_discardCount (b : Byte) : (s.bufPush b).discardCount = s.discardCount := rfl
@[simp] theorem State.bufPush_port (b : Byte) : (s.bufPush b).port = s.port := rfl
@[simp] theorem State.bufPush_responses (b : Byte) : (s.bufPush b).responses = s.responses := rfl

/-! ### `State.bufPop` -/

@[simp] theorem State.bufPop_cfg (n : Nat) : (s.bufPop n).cfg = s.cfg := rfl
@[simp] theorem State.bufPop_buf (n : Nat) : (s.bufPop n).buf = s.buf.drop n := rfl
@[simp] theorem State.bufPop_ctrl (n : Nat) : (s.bufPop n).ctrl = s.ctrl := rfl
@[simp] theorem State.bufPop_errValid (n : Nat) : (s.bufPop n).errValid = s.errValid := rfl
@[simp] theorem State.bufPop_errCode (n : Nat) : (s.bufPop n).errCode = s.errCode := rfl
@[simp] theorem State.bufPop_errDetail (n : Nat) : (s.bufPop n).errDetail = s.errDetail := rfl
@[simp] theorem State.bufPop_crcFlagged (n : Nat) : (s.bufPop n).crcFlagged = s.crcFlagged := rfl
@[simp] theorem State.bufPop_resyncSeen (n : Nat) : (s.bufPop n).resyncSeen = s.resyncSeen := rfl
@[simp] theorem State.bufPop_frameCount (n : Nat) : (s.bufPop n).frameCount = s.frameCount := rfl
@[simp] theorem State.bufPop_discardCount (n : Nat) : (s.bufPop n).discardCount = s.discardCount := rfl
@[simp] theorem State.bufPop_port (n : Nat) : (s.bufPop n).port = s.port := rfl
@[simp] theorem State.bufPop_responses (n : Nat) : (s.bufPop n).responses = s.responses := rfl

/-! ### `State.raise` -/

@[simp] theorem State.raise_cfg (e : FrameError) : (s.raise e).cfg = s.cfg := rfl
@[simp] theorem State.raise_buf (e : FrameError) : (s.raise e).buf = s.buf := rfl
@[simp] theorem State.raise_ctrl (e : FrameError) : (s.raise e).ctrl = s.ctrl := rfl
@[simp] theorem State.raise_errValid (e : FrameError) : (s.raise e).errValid = true := rfl
@[simp] theorem State.raise_errCode (e : FrameError) : (s.raise e).errCode = errorCode e := rfl
@[simp] theorem State.raise_errDetail (e : FrameError) : (s.raise e).errDetail = errorDetail e := rfl
@[simp] theorem State.raise_crcFlagged (e : FrameError) : (s.raise e).crcFlagged = s.crcFlagged := rfl
@[simp] theorem State.raise_resyncSeen (e : FrameError) : (s.raise e).resyncSeen = s.resyncSeen := rfl
@[simp] theorem State.raise_frameCount (e : FrameError) : (s.raise e).frameCount = s.frameCount := rfl
@[simp] theorem State.raise_discardCount (e : FrameError) : (s.raise e).discardCount = s.discardCount := rfl
@[simp] theorem State.raise_port (e : FrameError) : (s.raise e).port = s.port := rfl
@[simp] theorem State.raise_responses (e : FrameError) : (s.raise e).responses = .error (errorCode e) (errorDetail e) :: s.responses := rfl

/-! ### `State.endSession` -/

@[simp] theorem State.endSession_cfg : (s.endSession).cfg = s.cfg := rfl
@[simp] theorem State.endSession_buf : (s.endSession).buf = [] := rfl
@[simp] theorem State.endSession_ctrl : (s.endSession).ctrl = s.ctrl := rfl
@[simp] theorem State.endSession_errValid : (s.endSession).errValid = false := rfl
@[simp] theorem State.endSession_errCode : (s.endSession).errCode = 0 := rfl
@[simp] theorem State.endSession_errDetail : (s.endSession).errDetail = 0 := rfl
@[simp] theorem State.endSession_crcFlagged : (s.endSession).crcFlagged = false := rfl
@[simp] theorem State.endSession_resyncSeen : (s.endSession).resyncSeen = false := rfl
@[simp] theorem State.endSession_frameCount : (s.endSession).frameCount = 0 := rfl
@[simp] theorem State.endSession_discardCount : (s.endSession).discardCount = 0 := rfl
@[simp] theorem State.endSession_port : (s.endSession).port = s.port := rfl
@[simp] theorem State.endSession_responses : (s.endSession).responses = s.responses := rfl

/-! ### `State.powerOn` -/

@[simp] theorem State.powerOn_cfg : (s.powerOn).cfg = s.cfg := rfl
@[simp] theorem State.powerOn_buf : (s.powerOn).buf = [] := rfl
@[simp] theorem State.powerOn_ctrl : (s.powerOn).ctrl = 0 := rfl
@[simp] theorem State.powerOn_errValid : (s.powerOn).errValid = false := rfl
@[simp] theorem State.powerOn_errCode : (s.powerOn).errCode = 0 := rfl
@[simp] theorem State.powerOn_errDetail : (s.powerOn).errDetail = 0 := rfl
@[simp] theorem State.powerOn_crcFlagged : (s.powerOn).crcFlagged = false := rfl
@[simp] theorem State.powerOn_resyncSeen : (s.powerOn).resyncSeen = false := rfl
@[simp] theorem State.powerOn_frameCount : (s.powerOn).frameCount = 0 := rfl
@[simp] theorem State.powerOn_discardCount : (s.powerOn).discardCount = 0 := rfl
@[simp] theorem State.powerOn_port : (s.powerOn).port = s.port := rfl
@[simp] theorem State.powerOn_responses : (s.powerOn).responses = s.responses := rfl

/-! ### `State.discardByte` -/

@[simp] theorem State.discardByte_cfg : (s.discardByte).cfg = s.cfg := rfl
@[simp] theorem State.discardByte_buf : (s.discardByte).buf = s.buf.drop 1 := rfl
@[simp] theorem State.discardByte_ctrl : (s.discardByte).ctrl = s.ctrl := rfl
@[simp] theorem State.discardByte_errValid : (s.discardByte).errValid = s.errValid := rfl
@[simp] theorem State.discardByte_errCode : (s.discardByte).errCode = s.errCode := rfl
@[simp] theorem State.discardByte_errDetail : (s.discardByte).errDetail = s.errDetail := rfl
@[simp] theorem State.discardByte_crcFlagged : (s.discardByte).crcFlagged = s.crcFlagged := rfl
@[simp] theorem State.discardByte_resyncSeen : (s.discardByte).resyncSeen = true := rfl
@[simp] theorem State.discardByte_frameCount : (s.discardByte).frameCount = s.frameCount := rfl
@[simp] theorem State.discardByte_discardCount : (s.discardByte).discardCount = s.discardCount + 1 := rfl
@[simp] theorem State.discardByte_port : (s.discardByte).port = s.port := rfl
@[simp] theorem State.discardByte_responses : (s.discardByte).responses = s.responses := rfl

/-! ### `State.emit` -/

@[simp] theorem State.emit_cfg (n : Nat) (df : DecodedFrame) : (s.emit n df).cfg = s.cfg := rfl
@[simp] theorem State.emit_buf (n : Nat) (df : DecodedFrame) : (s.emit n df).buf = s.buf.drop n := rfl
@[simp] theorem State.emit_ctrl (n : Nat) (df : DecodedFrame) : (s.emit n df).ctrl = s.ctrl := rfl
@[simp] theorem State.emit_errValid (n : Nat) (df : DecodedFrame) : (s.emit n df).errValid = s.errValid := rfl
@[simp] theorem State.emit_errCode (n : Nat) (df : DecodedFrame) : (s.emit n df).errCode = s.errCode := rfl
@[simp] theorem State.emit_errDetail (n : Nat) (df : DecodedFrame) : (s.emit n df).errDetail = s.errDetail := rfl
@[simp] theorem State.emit_crcFlagged (n : Nat) (df : DecodedFrame) : (s.emit n df).crcFlagged = (s.crcFlagged || !df.crcOk) := rfl
@[simp] theorem State.emit_resyncSeen (n : Nat) (df : DecodedFrame) : (s.emit n df).resyncSeen = s.resyncSeen := rfl
@[simp] theorem State.emit_frameCount (n : Nat) (df : DecodedFrame) : (s.emit n df).frameCount = s.frameCount + 1 := rfl
@[simp] theorem State.emit_discardCount (n : Nat) (df : DecodedFrame) : (s.emit n df).discardCount = s.discardCount := rfl
@[simp] theorem State.emit_port (n : Nat) (df : DecodedFrame) : (s.emit n df).port = s.port := rfl
@[simp] theorem State.emit_responses (n : Nat) (df : DecodedFrame) : (s.emit n df).responses = .frame df :: s.responses := rfl

/-! ### `State.discardBytes` -/

@[simp] theorem State.discardBytes_cfg (n : Nat) : (s.discardBytes n).cfg = s.cfg := by
  induction n with
  | zero => rfl
  | succ n ih => simpa [State.discardBytes] using ih

@[simp] theorem State.discardBytes_ctrl (n : Nat) : (s.discardBytes n).ctrl = s.ctrl := by
  induction n with
  | zero => rfl
  | succ n ih => simpa [State.discardBytes] using ih

@[simp] theorem State.discardBytes_errValid (n : Nat) : (s.discardBytes n).errValid = s.errValid := by
  induction n with
  | zero => rfl
  | succ n ih => simpa [State.discardBytes] using ih

@[simp] theorem State.discardBytes_errCode (n : Nat) : (s.discardBytes n).errCode = s.errCode := by
  induction n with
  | zero => rfl
  | succ n ih => simpa [State.discardBytes] using ih

@[simp] theorem State.discardBytes_errDetail (n : Nat) : (s.discardBytes n).errDetail = s.errDetail := by
  induction n with
  | zero => rfl
  | succ n ih => simpa [State.discardBytes] using ih

@[simp] theorem State.discardBytes_crcFlagged (n : Nat) : (s.discardBytes n).crcFlagged = s.crcFlagged := by
  induction n with
  | zero => rfl
  | succ n ih => simpa [State.discardBytes] using ih

@[simp] theorem State.discardBytes_frameCount (n : Nat) : (s.discardBytes n).frameCount = s.frameCount := by
  induction n with
  | zero => rfl
  | succ n ih => simpa [State.discardBytes] using ih

@[simp] theorem State.discardBytes_port (n : Nat) : (s.discardBytes n).port = s.port := by
  induction n with
  | zero => rfl
  | succ n ih => simpa [State.discardBytes] using ih

@[simp] theorem State.discardBytes_responses (n : Nat) : (s.discardBytes n).responses = s.responses := by
  induction n with
  | zero => rfl
  | succ n ih => simpa [State.discardBytes] using ih

@[simp] theorem State.discardBytes_buf (n : Nat) : (s.discardBytes n).buf = s.buf.drop n := by
  induction n with
  | zero => rfl
  | succ n ih => simp [State.discardBytes, ih]

@[simp] theorem State.discardBytes_discardCount (n : Nat) :
    (s.discardBytes n).discardCount = s.discardCount + BitVec.ofNat 32 n := by
  induction n with
  | zero => simp [State.discardBytes]
  | succ n ih =>
    simp only [State.discardBytes, State.discardByte_discardCount, ih]
    rw [BitVec.add_assoc, show (1 : Word32) = BitVec.ofNat 32 1 from rfl, ← BitVec.ofNat_add]

@[simp] theorem State.discardBytes_resyncSeen (n : Nat) :
    (s.discardBytes n).resyncSeen = (s.resyncSeen || decide (0 < n)) := by
  cases n <;> simp [State.discardBytes]

/-! ### `State.search` -/

@[simp] theorem State.search_cfg : s.search.cfg = s.cfg := by unfold State.search; split <;> simp
@[simp] theorem State.search_ctrl : s.search.ctrl = s.ctrl := by unfold State.search; split <;> simp
@[simp] theorem State.search_errValid : s.search.errValid = s.errValid := by unfold State.search; split <;> simp
@[simp] theorem State.search_errCode : s.search.errCode = s.errCode := by unfold State.search; split <;> simp
@[simp] theorem State.search_errDetail : s.search.errDetail = s.errDetail := by unfold State.search; split <;> simp
@[simp] theorem State.search_crcFlagged : s.search.crcFlagged = s.crcFlagged := by unfold State.search; split <;> simp
@[simp] theorem State.search_frameCount : s.search.frameCount = s.frameCount := by unfold State.search; split <;> simp
@[simp] theorem State.search_port : s.search.port = s.port := by unfold State.search; split <;> simp
@[simp] theorem State.search_responses : s.search.responses = s.responses := by unfold State.search; split <;> simp

end Sys2Proof.Machine
end

