-- ==== Sys2Proof/Laws/Decoder.lean ====
section
/-! SUPPORT. Laws/Decoder.lean: one inversion lemma per operation of the decoder: everything it can do, said once, so that no
later proof unfolds it. -/

namespace Sys2Proof.Machine

variable (s : State)

/-- An operation's result is an error entry on `s`. -/
def IsRaise (s t : State) : Prop := ∃ e, t = s.raise e

/-- Steps 5 to 7 either raise an error or emit the frame, with the CRC they computed. -/
theorem State.decodeFrame_cases (func : FuncCode) (fr : RxFrame) :
    IsRaise s (s.decodeFrame func fr) ∨
    ∃ p, parseData s.ctrl func fr.data = some p ∧
      s.decodeFrame func fr =
        s.emit (rxTotal fr) (decodedFrame func fr p (crc16 s.cfg (coverage s.ctrl func fr))) := by
  unfold State.decodeFrame
  simp only
  split
  · exact .inl ⟨_, rfl⟩
  · split
    · exact .inl ⟨_, rfl⟩
    · next p hp => exact .inr ⟨p, hp, rfl⟩

/-- Steps 4 to 7 on a candidate `F` either raise an error or decode its fields. -/
theorem State.judge_cases (F : List Byte) :
    IsRaise s (s.judge F) ∨
    ∃ func, byteAt F 19 = protocol.slaveAddr ∧ funcOfByte (byteAt F 20) = some func ∧
      s.judge F = s.decodeFrame func (rxFields s.cfg.crcWireOrder F) := by
  unfold State.judge
  split
  · exact .inl ⟨_, rfl⟩
  · next ha =>
    split
    · exact .inl ⟨_, rfl⟩
    · next func hf => exact .inr ⟨func, by simpa using ha, hf, rfl⟩

/-- The fields of a frame of `T` bytes, `23 <= T`, add up to `T`. -/
theorem rxTotal_rxFields (order : ByteOrder) (F : List Byte) (h : 23 ≤ F.length) : rxTotal (rxFields order F) = F.length := by
  have : minFrameLen = 23 := rfl
  simp [rxTotal, rxFields, slice_length, this]; omega

/-- One pass of TRY_EXTRACT: it answers `NEED_MORE`, raises an error, or emits a frame that was all buffered. -/
theorem State.extract_cases :
    s.extract = s.respond .needMore ∨ IsRaise s s.extract ∨
    ∃ total df, 23 ≤ total ∧ total ≤ s.buf.length ∧ df.data.length + 23 = total ∧ df.crcOk = (df.crcCalc == df.crcRx) ∧
      headerParse s.cfg s.buf = .complete total ∧ s.extract = s.emit total df := by
  unfold State.extract
  split
  · exact .inl rfl
  · exact .inr (.inl ⟨_, rfl⟩)
  · exact .inr (.inl ⟨_, rfl⟩)
  · exact .inr (.inl ⟨_, rfl⟩)
  · exact .inr (.inl ⟨_, rfl⟩)
  · exact .inl rfl
  · next total h =>
    obtain ⟨-, -, -, -, hlo, -, hle⟩ := (headerParse_complete_iff ..).1 h
    have hlen : (slice s.buf 0 total).length = total := by rw [slice_length]; omega
    obtain hr | ⟨func, -, -, hj⟩ := s.judge_cases (slice s.buf 0 total)
    · exact .inr (.inl hr)
    · rw [hj]
      obtain hr | ⟨p, -, hp⟩ := s.decodeFrame_cases func (rxFields s.cfg.crcWireOrder (slice s.buf 0 total))
      · exact .inr (.inl hr)
      · have ht := rxTotal_rxFields s.cfg.crcWireOrder (slice s.buf 0 total) (by omega)
        rw [hlen] at ht
        refine .inr (.inr ⟨total, _, hlo, hle, ?_, rfl, h, by rw [hp, ht]⟩)
        rw [Nat.add_comm]
        exact ht

/-- The search changes the state by discards alone, at most `BufLen() - 7`, and by none under `TERMINATE`. -/
theorem State.search_cases :
    ∃ n, n ≤ s.buf.length - 7 ∧ s.search = s.discardBytes n ∧ (scanMode s.ctrl = false → n = 0) ∧
      (scanMode s.ctrl = true → n = junkLength s.cfg s.buf) := by
  unfold State.search
  split
  · next h => exact ⟨_, junkLength_le .., rfl, by simp [h], fun _ => rfl⟩
  · next h => exact ⟨0, by omega, rfl, fun _ => rfl, fun h' => absurd h' h⟩

/-- What TRY_EXTRACT does to the state, as a function. -/
theorem execTryExtract_eq :
    execTryExtract s = .next (if s.errValid then s.respond (.error s.errCode s.errDetail) else s.search.extract) := rfl

/-- A good header at the head is where the search stops at once. -/
theorem State.search_of_not_bad (h : (headerParse s.cfg s.buf).isBad = false) : s.search = s := by
  unfold State.search
  split
  · rw [junkLength_of_good _ _ h]; rfl
  · rfl

/-- Under `TERMINATE` the search does nothing. -/
theorem State.search_of_terminate (h : scanMode s.ctrl = false) : s.search = s := by simp [State.search, h]

/-- Under `SCAN` a bad header costs one byte and the search starts again. -/
theorem State.search_of_bad (hs : scanMode s.ctrl = true) (h : (headerParse s.cfg s.buf).isBad = true) :
    s.search = s.discardByte.search := by
  have hcomm : ∀ (n : Nat) (s : State), (s.discardBytes n).discardByte = s.discardByte.discardBytes n := by
    intro n
    induction n with
    | zero => intro s; rfl
    | succ n ih => intro s; simp only [State.discardBytes, ih]
  unfold State.search
  rw [if_pos hs, if_pos (by simpa using hs), junkLength_of_bad _ _ h]
  exact hcomm _ s

end Sys2Proof.Machine
end

