-- ==== Sys2Proof/Laws/Extract.lean ====
section
/-! SUPPORT. Laws/Extract.lean: everything the command TRY_EXTRACT can do to the state, said once (43_decoder.md rule R170), and
when the sentinel search stands still. -/

namespace Sys2Proof.Machine

variable {s t : State}

/-- With no error latched TRY_EXTRACT is the search and one pass. -/
theorem exec_tryExtract_unlatched (h : s.errValid = false) : exec .tryExtract s = .next s.search.extract := by
  simp [exec, execTryExtract, h]

/-- TRY_EXTRACT repeats a latched error, or discards `n` bytes and then asks for more, raises an error, or emits one frame that
was all buffered. -/
theorem exec_tryExtract_cases (h : exec .tryExtract s = .next t) :
    (s.errValid = true ∧ t = s.respond (.error s.errCode s.errDetail)) ∨
    (s.errValid = false ∧ ∃ n, n ≤ s.buf.length - 7 ∧ (scanMode s.ctrl = false → n = 0) ∧
      (scanMode s.ctrl = true → n = junkLength s.cfg s.buf) ∧ s.search = s.discardBytes n ∧
      (t = (s.discardBytes n).respond .needMore ∨ IsRaise (s.discardBytes n) t ∨
        ∃ total df, 23 ≤ total ∧ total ≤ s.buf.length - n ∧ df.data.length + 23 = total ∧
          df.crcOk = (df.crcCalc == df.crcRx) ∧ headerParse s.cfg (s.buf.drop n) = .complete total ∧
          t = (s.discardBytes n).emit total df)) := by
  cases he : s.errValid with
  | true =>
    simp only [exec, execTryExtract, he, if_true, Host.Outcome.next.injEq] at h
    exact .inl ⟨rfl, h.symm⟩
  | false =>
    rw [exec_tryExtract_unlatched he, Host.Outcome.next.injEq] at h
    obtain ⟨n, hn, hs, hz, hj⟩ := s.search_cases
    rw [hs] at h
    refine .inr ⟨rfl, n, hn, hz, hj, hs, ?_⟩
    obtain h' | h' | ⟨total, df, a, b, c, d, f, h'⟩ := (s.discardBytes n).extract_cases
    · exact .inl (by rw [← h, h'])
    · exact .inr (.inl (h ▸ h'))
    · exact .inr (.inr ⟨total, df, a, by simpa using b, c, d, by simpa using f, by rw [← h, h']⟩)

end Sys2Proof.Machine
end

