-- ==== Sys2Proof/Laws/Frames.lean ====
section
/-! SUPPORT. Laws/Frames.lean: where the fields of a built frame stand (30_encoding.md rules R70 to R72), and that operands are
read back as they are written. -/

namespace Sys2Proof.Machine

/-! ### Operands -/

/-- `be16` reads what `w16` writes (00_scope.md rule R12). -/
theorem hiByte_append_loByte (v : Half) : (hiByte v ++ loByte v : Half) = v := by
  ext i hi
  simp only [hiByte, loByte, BitVec.getElem_append, BitVec.getElem_extractLsb']
  split
  · simp [← BitVec.getLsbD_eq_getElem hi]
  · rw [← BitVec.getLsbD_eq_getElem hi]; congr 1; omega

theorem byteAt_append_right (A B : List Byte) (i : Nat) (h : A.length ≤ i) :
    byteAt (A ++ B) i = byteAt B (i - A.length) := by
  simp [byteAt, List.getD_eq_getElem?_getD, List.getElem?_append_right h]

theorem be16_w16 (v : Half) (R : List Byte) : be16 (w16 v ++ R) 0 = v := by
  simpa [be16, byteAt, w16] using hiByte_append_loByte v

theorem be16_append_right (A B : List Byte) (i : Nat) (h : A.length ≤ i) : be16 (A ++ B) i = be16 B (i - A.length) := by
  simp [be16, byteAt_append_right A B i h, byteAt_append_right A B (i + 1) (by omega), Nat.sub_add_comm h]

/-- The CRC field is read as it is written, wherever it stands (40_crc16.md rule R103). -/
theorem rcrc_at (order : ByteOrder) (v : Half) (A B : List Byte) (i : Nat) (h : i = A.length) :
    rcrc order (A ++ (wcrc order v ++ B)) i = v := by
  subst h
  cases order <;>
    simpa [rcrc, wcrc, byteAt, List.getD_eq_getElem?_getD, List.getElem?_append_right] using hiByte_append_loByte v

@[simp] theorem w16_length (v : Half) : (w16 v).length = 2 := rfl

@[simp] theorem wcrc_length (order : ByteOrder) (v : Half) : (wcrc order v).length = 2 := by cases order <;> rfl

theorem funcOfByte_funcByte (func : FuncCode) : funcOfByte (funcByte func) = some func := by cases func <;> decide

/-- The three codes and no other (30_encoding.md rule R77). -/
theorem funcOfByte_eq_some (b : Byte) (func : FuncCode) : funcOfByte b = some func ↔ b = funcByte func := by
  constructor
  · unfold funcOfByte
    split_ifs with h1 h2 h3 <;> rintro ⟨⟩ <;> assumption
  · rintro rfl; exact funcOfByte_funcByte func

/-! ### A frame around an inner frame -/

@[simp] theorem frameOf_length (inner : List Byte) : (frameOf inner).length = inner.length + 8 := by
  simp [frameOf, protocol]; omega

/-- The eight header bytes, then the inner frame. -/
theorem frameOf_eq (inner : List Byte) :
    frameOf inner = ([0x59, 0x59, 0x00, 0x01] ++ w16 (BitVec.ofNat 16 (inner.length + 2)) ++ [0x01, 0x02]) ++ inner := rfl

theorem frameOf_h1 (inner R : List Byte) : slice (frameOf inner ++ R) 0 4 = protocol.h1 := by
  simp [frameOf_eq, slice, w16, protocol]

theorem frameOf_h2 (inner R : List Byte) : slice (frameOf inner ++ R) 6 8 = protocol.h2 := by
  simp [frameOf_eq, slice, w16, protocol]

/-- `T` as the decoder computes it is the length of the frame (30_encoding.md rule R76), whatever is behind it. -/
theorem frameOf_totalLength (inner R : List Byte) (h : inner.length + 2 < 2 ^ 16) :
    totalLength (frameOf inner ++ R) = inner.length + 8 := by
  have hb : be16 (frameOf inner ++ R) 4 = BitVec.ofNat 16 (inner.length + 2) := by
    rw [frameOf_eq]
    simpa [be16, byteAt, w16] using hiByte_append_loByte (BitVec.ofNat 16 (inner.length + 2))
  rw [totalLength_eq, hb, BitVec.toNat_ofNat, Nat.mod_eq_of_lt h]

theorem byteAt_frameOf (inner : List Byte) (i : Nat) (h : 8 ≤ i) : byteAt (frameOf inner) i = byteAt inner (i - 8) := by
  rw [frameOf_eq, byteAt_append_right _ _ _ (by simpa using h)]; rfl

theorem slice_frameOf (inner : List Byte) (i j : Nat) (h : 8 ≤ i) : slice (frameOf inner) i j = slice inner (i - 8) (j - 8) := by
  rw [frameOf_eq, slice, slice, List.drop_append]
  rw [List.drop_eq_nil_of_le (by simpa using h)]
  simp [show j - 8 - (i - 8) = j - i by omega]

/-! ### A received frame -/

section received

variable (cfg : Config) (func : FuncCode) (fr : RxFrame)

theorem receivedFrame_length (h : fr.serial.length = 10) : (receivedFrame cfg func fr).length = 23 + fr.data.length := by
  simp [receivedFrame, h]; omega

/-- The inner frame, in the shape its fields are read from. -/
theorem receivedFrame_eq : receivedFrame cfg func fr =
    frameOf (fr.serial ++ (fr.pad :: protocol.slaveAddr :: funcByte func :: (fr.data ++ wcrc cfg.crcWireOrder fr.crc))) := by
  simp [receivedFrame]

theorem receivedFrame_addr (h : fr.serial.length = 10) : byteAt (receivedFrame cfg func fr) 19 = protocol.slaveAddr := by
  rw [receivedFrame_eq, byteAt_frameOf _ _ (by omega), byteAt_append_right _ _ _ (by omega), h]; rfl

theorem receivedFrame_func (h : fr.serial.length = 10) : byteAt (receivedFrame cfg func fr) 20 = funcByte func := by
  rw [receivedFrame_eq, byteAt_frameOf _ _ (by omega), byteAt_append_right _ _ _ (by omega), h]; rfl

/-- The decoder's fields of a built frame are the operands it was built from (43_decoder.md rule R184). -/
theorem rxFields_receivedFrame (h : fr.serial.length = 10) :
    rxFields cfg.crcWireOrder (receivedFrame cfg func fr) = fr := by
  have hl := receivedFrame_length cfg func fr h
  have hs : slice (receivedFrame cfg func fr) 8 18 = fr.serial := by
    rw [receivedFrame_eq, slice_frameOf _ _ _ (by omega), slice]; simp [h]
  have hp : byteAt (receivedFrame cfg func fr) 18 = fr.pad := by
    rw [receivedFrame_eq, byteAt_frameOf _ _ (by omega), byteAt_append_right _ _ _ (by omega), h]; rfl
  have hd : slice (receivedFrame cfg func fr) 21 (21 + fr.data.length) = fr.data := by
    rw [receivedFrame_eq, slice_frameOf _ _ _ (by omega), slice, List.drop_append, h]
    rw [List.drop_eq_nil_of_le (by omega)]
    simp [show 21 + fr.data.length - 8 - 13 = fr.data.length by omega]
  have hc : rcrc cfg.crcWireOrder (receivedFrame cfg func fr) (21 + fr.data.length) = fr.crc := by
    have := rcrc_at cfg.crcWireOrder fr.crc
      (protocol.h1 ++ w16 (BitVec.ofNat 16 (10 + (3 + (fr.data.length + 2)) + protocol.lenBias)) ++ protocol.h2
        ++ fr.serial ++ [fr.pad, protocol.slaveAddr, funcByte func] ++ fr.data) [] (21 + fr.data.length)
      (by simp [h, protocol]; omega)
    rw [← this, receivedFrame, frameOf]
    congr 1
    simp [h]
    congr 3
    omega
  unfold rxFields
  rw [hl, show 23 + fr.data.length - 2 = 21 + fr.data.length by omega, hs, hp, hd, hc]

/-- A well-formed frame at the head of the buffer is complete, whatever is behind it. -/
theorem headerParse_receivedFrame (R : List Byte) (h : fr.wf cfg = true) :
    headerParse cfg (receivedFrame cfg func fr ++ R) = .complete (23 + fr.data.length) := by
  obtain ⟨hs, hle⟩ : fr.serial.length = 10 ∧ minFrameLen + fr.data.length ≤ cfg.maxFrameLen := by
    simpa [RxFrame.wf] using h
  have hmin : minFrameLen = 23 := rfl
  have hl := receivedFrame_length cfg func fr hs
  have hb := cfg.bounds
  rw [hmin] at hle
  rw [headerParse_complete_iff]
  have ht : totalLength (receivedFrame cfg func fr ++ R) = 23 + fr.data.length := by
    rw [receivedFrame_eq, frameOf_totalLength]
    · simp [hs]; omega
    · simp [hs]; omega
  refine ⟨by simp [hl]; omega, ?_, ?_, ht.symm, by omega, hle, by simp [hl]⟩
  · exact frameOf_h1 _ R
  · exact frameOf_h2 _ R

end received

/-! ### A request frame -/

section request

variable (cfg : Config) (func : Byte) (base arg : Half)

/-- Every request is 27 bytes long (41_encoder.md rule R122). -/
theorem requestFrame_length : (requestFrame cfg func base arg).length = 27 := by
  simp [requestFrame, protocol]

/-- The inner frame, in the shape its fields are read from. -/
theorem requestFrame_eq : requestFrame cfg func base arg =
    frameOf ((protocol.txSerial ++ [cfg.txPad, protocol.slaveAddr]) ++ (func :: (w16 base ++ (w16 arg
      ++ wcrc cfg.crcWireOrder (crc16 cfg (requestCoverage func base arg)))))) := by
  simp [requestFrame]

theorem requestFrame_func : byteAt (requestFrame cfg func base arg) 20 = func := by
  rw [requestFrame_eq, byteAt_frameOf _ _ (by omega), byteAt_append_right _ _ _ (by simp [protocol])]; rfl

theorem requestFrame_base : be16 (requestFrame cfg func base arg) 21 = base := by
  simpa [requestFrame, frameOf_eq, be16, byteAt, w16, protocol] using hiByte_append_loByte base

theorem requestFrame_arg : be16 (requestFrame cfg func base arg) 23 = arg := by
  simpa [requestFrame, frameOf_eq, be16, byteAt, w16, protocol] using hiByte_append_loByte arg

/-- A request is the received frame with `TX_SERIAL`, `TX_PAD`, its operands as data and its CRC: the loopback frame of
43_decoder.md rule R193. -/
theorem requestFrame_eq_receivedFrame (code : FuncCode) :
    requestFrame cfg (funcByte code) base arg = receivedFrame cfg code
      ⟨protocol.txSerial, cfg.txPad, w16 base ++ w16 arg, crc16 cfg (requestCoverage (funcByte code) base arg)⟩ := by
  simp [requestFrame, receivedFrame]

end request

end Sys2Proof.Machine
end

