-- ==== Sys2Proof/Laws/Claims.lean ====
section
/-! SUPPORT. Laws/Claims.lean: the terms of Safety.lean, tied to the operations of the model. -/

namespace Sys2Proof.Machine

/-- Discards by count, as the claims write them. -/
theorem State.discardBytes_eq (s : State) (n : Nat) : s.discardBytes n = withDiscards s n := by
  have h : ∀ a b : State, a.cfg = b.cfg → a.buf = b.buf → a.ctrl = b.ctrl → a.errValid = b.errValid →
      a.errCode = b.errCode → a.errDetail = b.errDetail → a.crcFlagged = b.crcFlagged → a.resyncSeen = b.resyncSeen →
      a.frameCount = b.frameCount → a.discardCount = b.discardCount → a.port = b.port → a.responses = b.responses →
      a = b := by
    intro a b; cases a; cases b; simp only [State.mk.injEq]; intros; simp_all
  apply h <;> simp [withDiscards]

theorem knownFunc_iff (b : Byte) : KnownFunc b ↔ ∃ func, funcOfByte b = some func := by
  constructor
  · rintro (rfl | rfl | rfl) <;> exact ⟨_, rfl⟩
  · rintro ⟨func, h⟩
    rw [funcOfByte_eq_some] at h
    subst h
    cases func <;> simp [KnownFunc, funcByte, protocol]

theorem GoodHeader.isBad_eq {cfg : Config} {B : List Byte} (h : GoodHeader B) : (headerParse cfg B).isBad = false := by
  rw [Bool.eq_false_iff, ne_eq, headerParse_isBad_iff]
  rintro ⟨-, h1 | h2⟩
  · exact h1 h.2.1
  · exact h2 h.2.2

theorem Candidate.length_eq {s : State} {F : List Byte} (h : Candidate s F) : F.length = declaredTotal s.buf := by
  rw [h.is_head, List.length_take]; have := h.buffered; omega

/-- On a candidate frame TRY_EXTRACT is steps 4 to 7 on it. -/
theorem Candidate.exec_eq {s : State} {F : List Byte} (h : Candidate s F) : exec .tryExtract s = .next (s.judge F) := by
  have hp : headerParse s.cfg s.buf = .complete (declaredTotal s.buf) := by
    rw [headerParse_complete_iff]
    exact ⟨h.header.1, h.header.2.1, h.header.2.2, rfl, h.total_ge, h.total_le, h.buffered⟩
  rw [exec_tryExtract_unlatched h.unlatched, State.search_of_not_bad s h.header.isBad_eq, State.extract, hp]
  simp [slice, h.is_head]

end Sys2Proof.Machine
end

