-- ==== Sys2Proof/Laws/Command.lean ====
section
/-! SUPPORT. Laws/Command.lean: the fields of a command word, read as they are written (30_encoding.md rules R80 to R82), and a
word put together again from its fields. -/

namespace Sys2Proof

theorem encodeWord_op (op : Nibble) (hi : Byte) (lo : Word32) : (encodeWord op hi lo).extractLsb' 44 4 = op := by
  unfold encodeWord
  ext i h
  have : i < 4 := h
  interval_cases i <;> simp [BitVec.getLsbD_eq_getElem]

theorem encodeWord_reserved (op : Nibble) (hi : Byte) (lo : Word32) : (encodeWord op hi lo).extractLsb' 40 4 = 0 := by
  unfold encodeWord
  ext i h
  have : i < 4 := h
  interval_cases i <;> simp

theorem encodeWord_hi (op : Nibble) (hi : Byte) (lo : Word32) : (encodeWord op hi lo).extractLsb' 32 8 = hi := by
  unfold encodeWord
  ext i h
  have : i < 8 := h
  interval_cases i <;> simp [BitVec.getLsbD_eq_getElem]

/-- Any part of the low operand word is read as it was written. -/
theorem encodeWord_lo (op : Nibble) (hi : Byte) (lo : Word32) (start len : Nat) (hle : start + len ≤ 32) :
    (encodeWord op hi lo).extractLsb' start len = lo.extractLsb' start len := by
  unfold encodeWord
  ext i h
  simp [show start + i < 48 by omega, show start + i < 44 by omega, show start + i < 32 by omega]

/-- A word with no reserved bit in 43:40 is put together again from its fields. -/
theorem encodeWord_of_fields (w : Command) (h : w.extractLsb' 40 4 = 0) :
    encodeWord (w.extractLsb' 44 4) (w.extractLsb' 32 8) (w.extractLsb' 0 32) = w := by
  have hr : ∀ i, i < 4 → w.getLsbD (40 + i) = false := by
    intro i hi
    have := congrArg (fun v => v.getLsbD i) h
    simpa [hi] using this
  unfold encodeWord
  apply BitVec.eq_of_getLsbD_eq
  intro i hi
  simp only [BitVec.getLsbD_or, BitVec.getLsbD_shiftLeft, BitVec.getLsbD_setWidth, BitVec.getLsbD_extractLsb']
  by_cases h1 : i < 32
  · simp [h1, show i < 44 by omega, hi]
  · by_cases h2 : i < 40
    · simp [h1, show i < 44 by omega, hi, show i - 32 < 8 by omega, show i - 32 < 48 by omega, show 32 + (i - 32) = i by omega]
    · by_cases h3 : i < 44
      · have hz : w[i] = false := by
          rw [← BitVec.getLsbD_eq_getElem hi, ← hr (i - 40) (by omega), show 40 + (i - 40) = i by omega]
        simp [h1, h3, hi, show ¬(i - 32 < 8) by omega, hz]
      · simp [h1, h3, hi, show ¬(i - 32 < 8) by omega, show i - 44 < 4 by omega, show i - 44 < 48 by omega,
          show 44 + (i - 44) = i by omega]

theorem halves_hi (base arg : Half) : (halves base arg).extractLsb' 16 16 = base := by
  unfold halves
  ext i h
  simp [h, show 16 + i < 32 by omega]

theorem halves_lo (base arg : Half) : (halves base arg).extractLsb' 0 16 = arg := by
  unfold halves
  ext i h
  simp [h, show i < 32 by omega]

/-! ### The rows of the opcode table -/

/-- A word that matches a row reads as the row does wherever the row's mask is all ones. -/
theorem extract_of_row (w m v : Command) (start len : Nat) (hm : m.extractLsb' start len = BitVec.allOnes len)
    (h : w &&& m = v) : w.extractLsb' start len = v.extractLsb' start len := by
  ext i hi
  have hb := congrArg (fun x => x.getLsbD i) hm
  have hb : m.getLsbD (start + i) = true := by simpa [hi] using hb
  simp [← h, hb]

end Sys2Proof
end

