-- ==== Sys2Proof/Laws/PerInstr.lean ====
section
/-! SUPPORT. Laws/PerInstr.lean: one property of every instruction as syntax: what kind of encoding it has, and how long that is
(30_encoding.md rules R71, R72, R80). -/

namespace Sys2Proof.Laws.EncodedForm

open Sys2Proof.Machine

/-- A command is encoded as the one word the host issues for it; a request as 27 bytes; a well-formed received frame as the
`23 + D` bytes of its length field. -/
def Statement (i : Instr) : Prop :=
  ∀ cfg : Config, i.wf cfg = true →
    encode cfg i = .command (commandFor i) ∨
    (∃ F, encode cfg i = .request F ∧ F.length = 27) ∨
    ∃ F, encode cfg i = .received F ∧ 23 ≤ F.length ∧ F.length ≤ cfg.maxFrameLen

theorem encode (func : Byte) (base arg : Half) : Statement (.encode func base arg) := fun _ _ => .inl rfl

theorem feed (byte : Byte) : Statement (.feed byte) := fun _ _ => .inl rfl

theorem tryExtract : Statement .tryExtract := fun _ _ => .inl rfl

theorem sessionReset : Statement .sessionReset := fun _ _ => .inl rfl

theorem regRead (idx : Byte) : Statement (.regRead idx) := fun _ _ => .inl rfl

theorem regWrite (idx : Byte) (value : Word32) : Statement (.regWrite idx value) := fun _ _ => .inl rfl

theorem illegal (word : Command) : Statement (.illegal word) := fun _ _ => .inl rfl

theorem txReadHolding (base count : Half) : Statement (.txReadHolding base count) :=
  fun cfg _ => .inr (.inl ⟨_, rfl, requestFrame_length cfg _ base count⟩)

theorem txReadInput (base count : Half) : Statement (.txReadInput base count) :=
  fun cfg _ => .inr (.inl ⟨_, rfl, requestFrame_length cfg _ base count⟩)

theorem txWriteSingle (reg value : Half) : Statement (.txWriteSingle reg value) :=
  fun cfg _ => .inr (.inl ⟨_, rfl, requestFrame_length cfg _ reg value⟩)

/-- The length of a well-formed received frame is within the decoder's bounds. -/
theorem receivedFrame_bounds (cfg : Config) (func : FuncCode) (frame : RxFrame) (h : frame.wf cfg = true) :
    23 ≤ (receivedFrame cfg func frame).length ∧ (receivedFrame cfg func frame).length ≤ cfg.maxFrameLen := by
  obtain ⟨hs, hle⟩ : frame.serial.length = 10 ∧ minFrameLen + frame.data.length ≤ cfg.maxFrameLen := by
    simpa [RxFrame.wf] using h
  rw [receivedFrame_length cfg func frame hs]
  exact ⟨Nat.le_add_right .., hle⟩

theorem rxReadHolding (frame : RxFrame) : Statement (.rxReadHolding frame) :=
  fun cfg h => .inr (.inr ⟨_, rfl, receivedFrame_bounds cfg .readHolding frame h⟩)

theorem rxReadInput (frame : RxFrame) : Statement (.rxReadInput frame) :=
  fun cfg h => .inr (.inr ⟨_, rfl, receivedFrame_bounds cfg .readInput frame h⟩)

theorem rxWriteSingle (frame : RxFrame) : Statement (.rxWriteSingle frame) :=
  fun cfg h => .inr (.inr ⟨_, rfl, receivedFrame_bounds cfg .writeSingle frame h⟩)

end Sys2Proof.Laws.EncodedForm
end

