-- ==== Sys2Proof/Laws/Protocol.lean ====
section
/-! SUPPORT. Laws/Protocol.lean: the values of the protocol constants (00_scope.md rules R7, R10), so that a proof reads them
without unfolding the record. -/

namespace Sys2Proof

@[simp] theorem protocol_h1 : protocol.h1 = [0x59, 0x59, 0x00, 0x01] := rfl
@[simp] theorem protocol_h2 : protocol.h2 = [0x01, 0x02] := rfl
@[simp] theorem protocol_hdrLen : protocol.hdrLen = 8 := rfl
@[simp] theorem protocol_lenBias : protocol.lenBias = 2 := rfl
@[simp] theorem protocol_slaveAddr : protocol.slaveAddr = 0x32 := rfl
@[simp] theorem protocol_fcReadHolding : protocol.fcReadHolding = 0x03 := rfl
@[simp] theorem protocol_fcReadInput : protocol.fcReadInput = 0x04 := rfl
@[simp] theorem protocol_fcWriteSingle : protocol.fcWriteSingle = 0x06 := rfl
@[simp] theorem minFrameLen_eq : minFrameLen = 23 := rfl
@[simp] theorem reqFrameLen_eq : reqFrameLen = 27 := rfl

end Sys2Proof
end

