-- ==== Sys2Proof/Laws/Runs.lean ====
section
/-! SUPPORT. Laws/Runs.lean: runs of instructions, cut and put together, and what a sequence of FEEDs does while there is room
(30_encoding.md rule R87, 42_header_splitter.md rule R140). -/

namespace Sys2Proof.Machine

theorem runInstrs_append (is js : List Instr) (s t : State) (h : runInstrs is s = .next t) :
    runInstrs (is ++ js) s = runInstrs js t := by
  induction is generalizing s with
  | nil => cases h; rfl
  | cons i is ih =>
    simp only [List.cons_append, runInstrs] at h ⊢
    split at h
    · exact ih _ h
    · cases h
    · cases h

theorem runInstrs_feeds (bytes : List Byte) (s : State) (h : s.buf.length + bytes.length ≤ s.cfg.bufCap) :
    runInstrs (feeds bytes) s = .next
      { s with buf := s.buf ++ bytes, responses := List.replicate bytes.length .ack ++ s.responses } := by
  induction bytes generalizing s with
  | nil => simp [feeds, runInstrs]
  | cons b bytes ih =>
    have hb : exec (.feed b) s = .next ((s.bufPush b).respond .ack) := by
      simp only [exec, execFeed]; rw [if_neg (by simp only [List.length_cons] at h; omega)]
    have := ih ((s.bufPush b).respond .ack) (by
      simp only [State.respond_buf, State.bufPush_buf, State.respond_cfg, State.bufPush_cfg, List.length_append,
        List.length_cons, List.length_nil] at h ⊢; omega)
    simp only [feeds] at this
    simp only [feeds, List.map_cons, runInstrs, hb, this]
    simp [State.bufPush, State.respond, List.replicate_succ']

end Sys2Proof.Machine
end

