-- ==== Sys2Proof/Laws/Words.lean ====
section
/-! SUPPORT. Laws/Words.lean: slices of a byte sequence cut and read (00_scope.md rule R12), and the register values of a data
section by index (43_decoder.md rule R180). -/

namespace Sys2Proof.Machine

theorem slice_split (F : List Byte) (i j k : Nat) (h1 : i ≤ j) (h2 : j ≤ k) :
    slice F i k = slice F i j ++ slice F j k := by
  unfold slice
  rw [show k - i = (j - i) + (k - j) by omega, List.take_add, List.drop_drop, show i + (j - i) = j by omega]

theorem slice_one (F : List Byte) (i : Nat) (h : i < F.length) : slice F i (i + 1) = [byteAt F i] := by
  unfold slice byteAt
  rw [show i + 1 - i = 1 by omega, List.take_one_drop_eq_of_lt_length h]
  simp [List.getD_eq_getElem?_getD, h]

theorem byteAt_slice (F : List Byte) (i j k : Nat) (h : i + k < j) : byteAt (slice F i j) k = byteAt F (i + k) := by
  simp [byteAt, slice, List.getD_eq_getElem?_getD, show k < j - i by omega]

theorem be16_slice (F : List Byte) (i j k : Nat) (h : i + k + 1 < j) : be16 (slice F i j) k = be16 F (i + k) := by
  rw [be16, byteAt_slice F i j k (by omega), byteAt_slice F i j (k + 1) (by omega)]; rfl

theorem words16_eq (n : Nat) (B : List Byte) (h : B.length = 2 * n) :
    words16 B = (List.range n).map fun k => be16 B (2 * k) := by
  induction n generalizing B with
  | zero =>
    rw [Nat.mul_zero, List.length_eq_zero_iff] at h
    subst h; rfl
  | succ n ih =>
    match B, h with
    | hi :: lo :: rest, h =>
      have hl : rest.length = 2 * n := by simp only [List.length_cons] at h; omega
      rw [words16, ih rest hl, List.range_succ_eq_map, List.map_cons, List.map_map]
      rfl
    | [_], h => simp only [List.length_cons, List.length_nil] at h; omega
    | [], h => simp only [List.length_nil] at h; omega

end Sys2Proof.Machine
end

