-- ==== Sys2Proof/Tests/Slice0.lean ====
section
/-! SUPPORT. Slice0.lean: tests and witnesses. The expected results are the rows of spec/95_test_vectors.md, whose sections the
comments name; the words and frames are written out from there and from 30_encoding.md rules R72 and R80 to R82. -/

namespace Sys2Proof.Tests

set_option Elab.async false

open Machine

/-! ## The frames of 95_test_vectors.md -/

def req : List Byte :=
  [0x59, 0x59, 0x00, 0x01, 0x00, 0x15, 0x01, 0x02, 0x41, 0x42, 0x31, 0x32, 0x33, 0x34, 0x47, 0x35, 0x36, 0x37, 0x00, 0x32,
   0x03, 0x00, 0x20, 0x00, 0x06, 0xC8, 0xE1]

def rsp03 : List Byte :=
  [0x59, 0x59, 0x00, 0x01, 0x00, 0x19, 0x01, 0x02, 0x57, 0x46, 0x32, 0x31, 0x34, 0x35, 0x47, 0x30, 0x31, 0x32, 0x01, 0x32,
   0x03, 0x00, 0x20, 0x00, 0x02, 0x12, 0x34, 0xAB, 0xCD, 0x4A, 0x80]

def rsp04 : List Byte :=
  [0x59, 0x59, 0x00, 0x01, 0x00, 0x17, 0x01, 0x02, 0x57, 0x46, 0x32, 0x31, 0x34, 0x35, 0x47, 0x30, 0x31, 0x32, 0x01, 0x32,
   0x04, 0x00, 0x00, 0x00, 0x01, 0x00, 0xFF, 0xDB, 0xE0]

def rsp06 : List Byte :=
  [0x59, 0x59, 0x00, 0x01, 0x00, 0x15, 0x01, 0x02, 0x57, 0x46, 0x32, 0x31, 0x34, 0x35, 0x47, 0x30, 0x31, 0x32, 0x01, 0x32,
   0x06, 0x00, 0x10, 0x12, 0x34, 0xA8, 0xC9]

/-- `BAD06`: `RSP06` with its last byte changed. -/
def bad06 : List Byte := rsp06.set 26 0xC8

/-- `Z3` of section 7.3, a read frame with an empty data section. -/
def z3 : List Byte :=
  [0x59, 0x59, 0x00, 0x01, 0x00, 0x11, 0x01, 0x02, 0x57, 0x46, 0x32, 0x31, 0x34, 0x35, 0x47, 0x30, 0x31, 0x32, 0x01, 0x32,
   0x03, 0x8A, 0x84]

/-- `W6` of section 7.3, a write frame with six data bytes. -/
def w6 : List Byte :=
  [0x59, 0x59, 0x00, 0x01, 0x00, 0x17, 0x01, 0x02, 0x57, 0x46, 0x32, 0x31, 0x34, 0x35, 0x47, 0x30, 0x31, 0x32, 0x01, 0x32,
   0x06, 0x00, 0x10, 0x12, 0x34, 0x00, 0x00, 0xEE, 0x57]

/-- The serial "WF2145G012" of the section's responses. -/
def wf : List Byte := [0x57, 0x46, 0x32, 0x31, 0x34, 0x35, 0x47, 0x30, 0x31, 0x32]

/-- The operands of `RSP03`, `RSP04` and `RSP06`. -/
def fr03 : RxFrame := ⟨wf, 0x01, [0x00, 0x20, 0x00, 0x02, 0x12, 0x34, 0xAB, 0xCD], 0x4A80⟩
def fr04 : RxFrame := ⟨wf, 0x01, [0x00, 0x00, 0x00, 0x01, 0x00, 0xFF], 0xDBE0⟩
def fr06 : RxFrame := ⟨wf, 0x01, [0x00, 0x10, 0x12, 0x34], 0xA8C9⟩

/-! ## Helpers -/

/-- The reset state with these bytes buffered and this strategy. -/
def holding (bytes : List Byte) (ctrl : Word32 := 0) : State := { State.reset with buf := bytes, ctrl := ctrl }

/-- The same with `ChecksumMismatch` latched. -/
def latched (bytes : List Byte) (ctrl : Word32 := 0) : State :=
  { holding bytes ctrl with errValid := true, errCode := 4, errDetail := 0 }

/-- The next state, if there is one. -/
def nextOf : Host.Outcome State Fault Refusal → Option State
  | .next t => some t
  | _ => none

/-- The newest response after an instruction. -/
def said (i : Instr) (s : State) : Option Response := (nextOf (exec i s)).bind fun t => t.responses.head?

/-- What `STATUS` reads after an instruction. -/
def statusAfter (i : Instr) (s : State) : Option Response := (nextOf (exec i s)).bind (said (.regRead 0x01))

/-- What the tests look at of an emitted frame. -/
structure Seen where
  func : Byte
  base : Option Half
  arg : Half
  regs : List Half
  crcOk : Bool
deriving DecidableEq

/-- The emitted frame, if the response is one. -/
def frameOfResponse : Option Response → Option Seen
  | some (.frame df) => some ⟨df.func, df.base, df.arg, df.regs, df.crcOk⟩
  | _ => none

/-- Why the decoder refuses an encoding. -/
def rejected : Except Reject Instr → Option Reject
  | .error e => some e
  | .ok _ => none

/-- A small instance: `BUF_CAP = MAX_FRAME_LEN = 27`, the variant of program P4. -/
def small : Config := { maxFrameLen := 27, bufCap := 27 }

/-! ## WellFormed: an ill-formed term for each check, which the check refuses -/

theorem test_wf_illegal_refuses_a_command_word : (Instr.illegal 0x200000000059).wf Config.default = false := by decide

theorem test_wf_illegal_accepts_an_ill_formed_word : (Instr.illegal 0x310000000000).wf Config.default = true := by decide

theorem test_wf_rx_refuses_a_short_serial : (Instr.rxReadHolding ⟨[0x57], 0, [], 0⟩).wf Config.default = false := by decide

theorem test_wf_rx_refuses_a_long_frame :
    (Instr.rxReadInput ⟨wf, 0, List.replicate 255 0, 0⟩).wf Config.default = false ∧
    (Instr.rxReadInput ⟨wf, 0, List.replicate 254 0, 0⟩).wf Config.default = true := by decide +kernel

theorem test_wf_rx_write_refuses_a_long_serial : (Instr.rxWriteSingle ⟨0 :: wf, 0, [], 0⟩).wf Config.default = false := by
  decide

/-! ## Decode: one word of every constructor, written out from the spec -/

/-- Section 4: `ENCODE 0x03, 0x0020, 6`; `OP` 0001, reserved 0000, `FUNC` 03, `BASE` 0020, `ARG` 0006. -/
theorem test_decode_encode : decodeCommand 0x100300200006 = .encode 0x03 0x0020 0x0006 := by decide

theorem test_decode_feed : decodeCommand 0x200000000059 = .feed 0x59 := by decide

theorem test_decode_feed_reserved_bit : decodeCommand 0x200000000100 = .illegal 0x200000000100 := by decide

theorem test_decode_tryExtract : decodeCommand 0x300000000000 = .tryExtract := by decide

theorem test_decode_sessionReset : decodeCommand 0x400000000000 = .sessionReset := by decide

theorem test_decode_sessionReset_reserved_bit : decodeCommand 0x400000000001 = .illegal 0x400000000001 := by decide

theorem test_decode_regRead : decodeCommand 0x50FF00000000 = .regRead 0xFF := by decide

theorem test_decode_regRead_reserved_bit : decodeCommand 0x500100000001 = .illegal 0x500100000001 := by decide

theorem test_decode_regWrite : decodeCommand 0x601000000001 = .regWrite 0x10 0x00000001 := by decide

theorem test_decode_illegal_op : decodeCommand 0x000000000000 = .illegal 0 ∧ decodeCommand 0x700000000000 = .illegal 0x700000000000 ∧
    decodeCommand 0xF00000000000 = .illegal 0xF00000000000 := by decide

theorem test_decode_illegal_reserved : decodeCommand 0x1F0300200006 = .illegal 0x1F0300200006 := by decide

/-- 41_encoder.md rule R120's example. -/
theorem test_decode_txReadHolding :
    (decode Config.default (.request req)).toOption = some (.txReadHolding 0x0020 0x0006) := by decide +kernel

/-- 41_encoder.md rule R127's example. -/
theorem test_decode_txReadInput :
    (decode Config.default (.request (req.take 20 ++ [0x04, 0x00, 0x00, 0x00, 0x01, 0x00, 0x14]))).toOption =
      some (.txReadInput 0x0000 0x0001) := by decide +kernel

/-- 41_encoder.md rule R128's example. -/
theorem test_decode_txWriteSingle :
    (decode Config.default (.request (req.take 20 ++ [0x06, 0x00, 0x10, 0x12, 0x34, 0xB2, 0xA0]))).toOption =
      some (.txWriteSingle 0x0010 0x1234) := by decide +kernel

/-- A request whose CRC field is wrong is no request. -/
theorem test_decode_request_crc :
    rejected (decode Config.default (.request (req.set 26 0xE0))) = some .requestCrc := by decide +kernel

theorem test_decode_rxReadHolding : (decode Config.default (.received rsp03)).toOption = some (.rxReadHolding fr03) := by
  decide +kernel

theorem test_decode_rxReadInput : (decode Config.default (.received rsp04)).toOption = some (.rxReadInput fr04) := by
  decide +kernel

theorem test_decode_rxWriteSingle : (decode Config.default (.received rsp06)).toOption = some (.rxWriteSingle fr06) := by
  decide +kernel

/-! ## The opcode table's numbering -/

/-- The 216-bit pattern of the table's row TX_READ_HOLDING, its `c` letters 0. -/
theorem test_table_txReadHolding :
    decodeTableWord 216 0x595900010015010241423132333447353637003203002000060000 = some (.txReadHolding 0x0020 0x0006) := by
  decide +kernel

theorem test_table_feed : decodeTableWord 48 0x200000000059 = some (.feed 0x59) := by decide

/-- A row of eight bits is a received frame's function code. -/
theorem test_table_rx :
    ((decodeTableWord 8 0x03).map fun i => match i with | .rxReadHolding _ => true | _ => false) = some true ∧
    ((decodeTableWord 8 0x06).map fun i => match i with | .rxWriteSingle _ => true | _ => false) = some true ∧
    decodeTableWord 8 0x05 = none := by decide +kernel

/-- The placed command is what the next step runs. -/
theorem test_fetch_command :
    (nextOf (step (State.reset.withFetchWord 48 0x200000000059))).map (fun t => (t.buf, t.responses)) =
      some ([0x59], [.ack]) := by decide +kernel

/-- The placed request is answered with its 27 bytes. -/
theorem test_fetch_request :
    (nextOf (step (State.reset.withFetchWord 216 0x595900010015010241423132333447353637003203002000060000))).map
      (fun t => t.responses) = some [.ok req] := by decide +kernel

/-- The placed frame is emitted. -/
theorem test_fetch_received :
    (nextOf (step (State.reset.withFetchWord 8 0x06))).map (fun t => (t.buf, t.frameCount)) = some ([], 1) := by
  decide +kernel

/-! ## One step of each instruction (95_test_vectors.md) -/

/-- Section 4, the §8 scenario. -/
theorem test_encode_read : said (.encode 0x03 0x0020 6) State.reset = some (.ok req) := by decide +kernel

/-- Section 4: the count is checked before the span. -/
theorem test_encode_order : said (.encode 0x04 0x0001 0xFFFF) State.reset = some (.invalidRequest 2) := by decide +kernel

/-- Section 4, rows `10030000007E` and `1003FF84007D`. -/
theorem test_txReadHolding_refused : said (.txReadHolding 0x0000 126) State.reset = some (.invalidRequest 2) ∧
    said (.txReadHolding 0xFF84 125) State.reset = some (.invalidRequest 3) := by decide +kernel

/-- Section 4, row `1003FF83007D`: the last register is `0xFFFF`; and section 3: the wire order `LE` swaps the CRC bytes. -/
theorem test_txReadHolding_frame :
    said (.txReadHolding 0xFF83 125) State.reset = some (.ok (req.take 20 ++ [0x03, 0xFF, 0x83, 0x00, 0x7D, 0xDD, 0x61])) ∧
    said (.txReadHolding 0x0020 6) { State.reset with cfg := { crcWireOrder := .le } } =
      some (.ok (req.take 25 ++ [0xE1, 0xC8])) := by decide +kernel

/-- Section 4, row `1004FFFF0001`, and its neighbour of rule R127. -/
theorem test_txReadInput_edge :
    said (.txReadInput 0xFFFF 1) State.reset = some (.ok (req.take 20 ++ [0x04, 0xFF, 0xFF, 0x00, 0x01, 0x24, 0x14])) ∧
    said (.txReadInput 0xFFFF 2) State.reset = some (.invalidRequest 3) := by decide +kernel

/-- Section 4, row `1006FFFF0000`: value 0 is legal for a write. -/
theorem test_txWriteSingle_zero :
    said (.txWriteSingle 0xFFFF 0) State.reset = some (.ok (req.take 20 ++ [0x06, 0xFF, 0xFF, 0x00, 0x00, 0x24, 0xAC])) := by
  decide +kernel

/-- Section 5: an accepted byte, and a latched error that does not stop it. -/
theorem test_feed_latched : said (.feed 0x59) (latched rsp06) = some .ack ∧
    statusAfter (.feed 0x59) (latched rsp06) = some (.value 0x001C0041) := by decide +kernel

/-- Program P4: the byte behind a full buffer is not taken. -/
theorem test_feed_full : said (.feed 0x59) { holding rsp06 with cfg := small } = some .full ∧
    statusAfter (.feed 0x59) { holding rsp06 with cfg := small } = some (.value 0x001B0000) := by decide +kernel

/-- Section 7.4, its first row: three discards, then the frame. -/
theorem test_tryExtract_scan :
    frameOfResponse (said .tryExtract (holding ([0x00, 0x59, 0x59] ++ rsp06) 1)) = some ⟨0x06, some 0x0010, 0x1234, [], true⟩ ∧
    (nextOf (exec .tryExtract (holding ([0x00, 0x59, 0x59] ++ rsp06) 1))).map (fun t => (t.discardCount, t.buf)) =
      some (3, []) := by decide +kernel

/-- Section 6: `T = 278` overflows at once, `T = 277` waits, `T = 6` is malformed. -/
theorem test_tryExtract_length :
    said .tryExtract (holding [0x59, 0x59, 0x00, 0x01, 0x01, 0x10, 0x01, 0x02]) = some (.error 2 0) ∧
    said .tryExtract (holding [0x59, 0x59, 0x00, 0x01, 0x01, 0x0F, 0x01, 0x02]) = some .needMore ∧
    said .tryExtract (holding [0x59, 0x59, 0x00, 0x01, 0x00, 0x00, 0x01, 0x02]) = some (.error 6 0) := by decide +kernel

/-- Section 7.3: `RSP03` in both layouts. -/
theorem test_rxReadHolding_layouts :
    frameOfResponse (said (.rxReadHolding fr03) (holding rsp03)) = some ⟨0x03, some 0x0020, 2, [0x1234, 0xABCD], true⟩ ∧
    frameOfResponse (said (.rxReadHolding fr03) (holding rsp03 8)) =
      some ⟨0x03, none, 4, [0x0020, 0x0002, 0x1234, 0xABCD], true⟩ := by decide +kernel

/-- Section 7.2: `REQ` under STRICT, FLAG and FUNC_DATA. -/
theorem test_rxReadHolding_policies :
    statusAfter .tryExtract (holding req) = some (.value 0x001B0041) ∧
    statusAfter .tryExtract (holding req 2) = some (.value 0x00001000) ∧
    frameOfResponse (said .tryExtract (holding req 4)) = some ⟨0x03, some 0x0020, 6, [], true⟩ := by decide +kernel

/-- Section 7.3: `RSP04` in both layouts. -/
theorem test_rxReadInput_layouts :
    frameOfResponse (said (.rxReadInput fr04) (holding rsp04)) = some ⟨0x04, some 0x0000, 1, [0x00FF], true⟩ ∧
    frameOfResponse (said (.rxReadInput fr04) (holding rsp04 8)) = some ⟨0x04, none, 3, [0, 1, 0x00FF], true⟩ := by
  decide +kernel

/-- Section 7.3: the layout bit does not apply to a write. -/
theorem test_rxWriteSingle_layout :
    frameOfResponse (said (.rxWriteSingle fr06) (holding rsp06)) = some ⟨0x06, some 0x0010, 0x1234, [], true⟩ ∧
    frameOfResponse (said (.rxWriteSingle fr06) (holding rsp06 8)) = some ⟨0x06, some 0x0010, 0x1234, [], true⟩ := by
  decide +kernel

/-- Section 7.3: `W6` is malformed, and with a wrong CRC a mismatch first. -/
theorem test_rxWriteSingle_malformed :
    statusAfter .tryExtract (holding w6) = some (.value 0x001D0161) ∧
    statusAfter .tryExtract (holding (w6.set 28 0x56)) = some (.value 0x001D0041) ∧
    statusAfter .tryExtract (holding (w6.set 28 0x56) 2) = some (.value 0x001D0161) := by decide +kernel

/-- Section 8: SESSION_RESET keeps `CTRL` alone. -/
theorem test_sessionReset :
    nextOf (exec .sessionReset (latched rsp06 5)) = some { holding [] 5 with responses := [.ack] } := by decide +kernel

/-- Section 8: the reads, and a reserved index. -/
theorem test_regRead :
    said (.regRead 0x01) (latched rsp06) = some (.value 0x001B0041) ∧ said (.regRead 0x03) State.reset = some (.value 0) ∧
    said (.regRead 0x04) State.reset = some .illegal := by decide +kernel

/-- Section 8: bits 31:4 are ignored; `STATUS` is not writable. -/
theorem test_regWrite :
    (nextOf (exec (.regWrite 0x00 0xFFFFFFFA) State.reset)).map (fun t => (t.ctrl, t.responses)) = some (0xA, [.ack]) ∧
    said (.regWrite 0x01 0) State.reset = some .illegal := by decide +kernel

/-- Section 8: an ill-formed word changes nothing. -/
theorem test_illegal :
    nextOf (exec (.illegal 0x700000000000) (latched rsp06)) = some { latched rsp06 with responses := [.illegal] } := by
  decide +kernel

/-- Section 3. -/
theorem test_crc_vectors :
    crc16 Config.default [] = 0xFFFF ∧ crc16 Config.default [0x01] = 0x807E ∧
    crc16 Config.default (slice req 8 25) = 0x2C34 := by decide +kernel

/-! ## Witnesses: concrete states and operands that meet the hypotheses of each obligation, clause by clause -/

/-- The instance `cfg` with a received frame of these operands buffered. -/
def buffered (func : FuncCode) (fr : RxFrame) (ctrl : Word32) : State := holding (receivedFrame Config.default func fr) ctrl

/-- The operands of a frame with this many zero data bytes and no right CRC. -/
def zeros (d : Nat) : RxFrame := ⟨wf, 0x01, List.replicate d 0, 0⟩

/-- A state with these inputs at the port. -/
def asked (port : List Input) (s : State) : State := { s with port := port }

theorem witness_PowerOnReset : ∃ s : State, s.port = .powerOnReset :: [] ∧ s.errValid = true :=
  ⟨asked [.powerOnReset] (latched rsp06), by decide⟩

theorem witness_ReadyAtOnce : ∃ (s : State) (bytes : List Byte), s.cfg = small ∧ bytes.length = s.cfg.bufCap :=
  ⟨{ State.reset with cfg := small }, rsp06, by decide +kernel⟩

theorem witness_ReadyAtOnce_default : ∃ bytes : List Byte, bytes.length = State.reset.cfg.bufCap :=
  ⟨List.replicate 1024 0, by decide +kernel⟩

/-- The highest legal read of section 4, and a write. -/
theorem witness_ReadyAtOnce_encode : (125 : Half) ≠ 0 ∧ (125 : Half).toNat = State.reset.cfg.maxCount ∧
    (0xFF83 : Half).toNat + (125 : Half).toNat = 0x10000 := by decide

theorem witness_IdleBlock : ∃ s : State, s.port = [] ∧ s.errValid = true := ⟨latched rsp06, by decide⟩

theorem witness_StepRunsTheDecodedCommand : ∃ s : State, s.port = [.command 0x200000000059] ∧
    (decode s.cfg (.command 0x200000000059)).toOption = some (.feed 0x59) :=
  ⟨asked [.command 0x200000000059] State.reset, by decide⟩

theorem witness_RequestsRunAsEncode : ∃ s : State,
    s.port = [.command (commandFor (requestInstr .readHolding 0x0020 6))] ∧
    commandFor (requestInstr .readHolding 0x0020 6) = 0x100300200006 :=
  ⟨asked [.command 0x100300200006] State.reset, by decide⟩

theorem witness_ReceivedFramesRunAsTryExtract : ∃ s : State,
    fr06.wf s.cfg = true ∧ s.errValid = false ∧ receivedFrame s.cfg .writeSingle fr06 <+: s.buf ∧
    s.port = [.command 0x300000000000] :=
  ⟨asked [.command 0x300000000000] (holding (rsp06 ++ rsp03)), by decide +kernel⟩

/-- Well-formed instructions, the received frames at both ends of their length. -/
theorem witness_DecodeOfEncode :
    (Instr.illegal 0x310000000000).wf Config.default = true ∧ (Instr.encode 0xFF 0xFFFF 0xFFFF).wf Config.default = true ∧
    (Instr.txReadHolding 0 0).wf Config.default = true ∧ (Instr.rxReadHolding (zeros 0)).wf Config.default = true ∧
    (Instr.rxReadInput (zeros 254)).wf Config.default = true ∧ (Instr.rxWriteSingle (zeros 4)).wf small = true := by
  decide +kernel

/-- One word for each way of being ill-formed. -/
theorem witness_IllFormedWords :
    (0x000000000000 : Command).extractLsb' 44 4 = 0x0#4 ∧ 7 ≤ ((0x700000000000 : Command).extractLsb' 44 4).toNat ∧
    7 ≤ ((0xF00000000000 : Command).extractLsb' 44 4).toNat ∧ (0x310000000000 : Command).extractLsb' 40 4 ≠ 0#4 ∧
    ((0x200000000100 : Command).extractLsb' 44 4 = 0x2#4 ∧ (0x200000000100 : Command).extractLsb' 8 32 ≠ 0#32) ∧
    ((0x300000000100 : Command).extractLsb' 44 4 = 0x3#4 ∧ (0x300000000100 : Command).extractLsb' 0 40 ≠ 0#40) ∧
    ((0x400000000001 : Command).extractLsb' 44 4 = 0x4#4 ∧ (0x400000000001 : Command).extractLsb' 0 40 ≠ 0#40) ∧
    ((0x500100000001 : Command).extractLsb' 44 4 = 0x5#4 ∧ (0x500100000001 : Command).extractLsb' 0 32 ≠ 0#32) := by decide

theorem witness_EncodedFramesAre27Bytes : ∃ t : State,
    exec (.encode 0x03 0xFF83 125) State.reset = .next t ∧ ∃ F, t.responses = .ok F :: State.reset.responses :=
  ⟨_, rfl, _, by rfl⟩

theorem witness_EncodeIsPure : ∃ s : State, s.cfg = small ∧ s.errValid = true :=
  ⟨{ latched rsp06 with cfg := small }, by decide⟩

theorem witness_LatchedError : ∃ s : State, s.errValid = true ∧ 8 ≤ s.buf.length := ⟨latched rsp06, by decide⟩

theorem witness_NeedMore_short : ∃ s : State, s.errValid = false ∧ s.buf.length = 7 := ⟨holding (rsp06.take 7), by decide⟩

/-- The longest frame, one byte short. -/
theorem witness_NeedMore_incomplete : ∃ s : State, s.errValid = false ∧ GoodHeader s.buf ∧ 23 ≤ declaredTotal s.buf ∧
    declaredTotal s.buf = s.cfg.maxFrameLen ∧ s.buf.length + 1 = declaredTotal s.buf :=
  ⟨holding ([0x59, 0x59, 0x00, 0x01, 0x01, 0x0F, 0x01, 0x02] ++ List.replicate 268 0), by decide +kernel⟩

theorem witness_BadHeader_h1 : ∃ s : State, s.errValid = false ∧ s.ctrl.getLsbD 0 = false ∧ s.buf.length = 8 ∧
    slice s.buf 0 4 ≠ [0x59, 0x59, 0x00, 0x01] := ⟨holding (List.replicate 8 0), by decide⟩

theorem witness_BadHeader_h2 : ∃ s : State, s.errValid = false ∧ s.ctrl.getLsbD 0 = false ∧ 8 ≤ s.buf.length ∧
    slice s.buf 0 4 = [0x59, 0x59, 0x00, 0x01] ∧ slice s.buf 6 8 ≠ [0x01, 0x02] :=
  ⟨holding (rsp06.set 7 0), by decide⟩

theorem witness_Search_bad : ∃ s : State, s.errValid = false ∧ s.ctrl.getLsbD 0 = true ∧ s.buf.length = 8 ∧
    ¬GoodHeader s.buf := ⟨holding (List.replicate 8 0) 1, by decide⟩

theorem witness_Search_stops : ∃ s s' : State, s.errValid = false ∧ s.ctrl.getLsbD 0 = true ∧ s.buf.length = 7 ∧
    s'.errValid = false ∧ s'.ctrl.getLsbD 0 = true ∧ GoodHeader s'.buf :=
  ⟨holding (List.replicate 7 0) 1, holding rsp06 1, by decide⟩

/-- `T` one past its bounds on both sides. -/
theorem witness_LengthOutOfBounds : ∃ s s' : State,
    (s.errValid = false ∧ GoodHeader s.buf ∧ declaredTotal s.buf = s.cfg.maxFrameLen + 1) ∧
    s'.errValid = false ∧ GoodHeader s'.buf ∧ declaredTotal s'.buf = 22 :=
  ⟨holding [0x59, 0x59, 0x00, 0x01, 0x01, 0x10, 0x01, 0x02], holding [0x59, 0x59, 0x00, 0x01, 0x00, 0x10, 0x01, 0x02],
    by decide⟩

/-- What makes the bytes `F` the candidate of a state that holds them and more behind them. -/
theorem candidate_of (F R : List Byte) (ctrl : Word32) (hg : GoodHeader (F ++ R)) (ht : declaredTotal (F ++ R) = F.length)
    (hlo : 23 ≤ F.length) (hhi : F.length ≤ 277) : Candidate (holding (F ++ R) ctrl) F where
  unlatched := rfl
  header := hg
  total_ge := by change 23 ≤ declaredTotal (F ++ R); rw [ht]; exact hlo
  total_le := by change declaredTotal (F ++ R) ≤ 277; rw [ht]; exact hhi
  buffered := by change declaredTotal (F ++ R) ≤ (F ++ R).length; rw [ht, List.length_append]; exact Nat.le_add_right ..
  is_head := by change F = (F ++ R).take (declaredTotal (F ++ R)); rw [ht, List.take_left]

theorem candidate_rsp06 (ctrl : Word32) : Candidate (holding (rsp06 ++ []) ctrl) rsp06 :=
  candidate_of rsp06 [] ctrl (by decide) (by decide) (by decide) (by decide)

theorem witness_AddressThenFunction_addr : ∃ (s : State) (F : List Byte), Candidate s F ∧ byteAt F 19 ≠ 0x32 :=
  ⟨_, rsp06.set 19 0x33, candidate_of _ [] 0 (by decide) (by decide) (by decide) (by decide), by decide⟩

theorem witness_AddressThenFunction_func : ∃ (s : State) (F : List Byte), Candidate s F ∧ byteAt F 19 = 0x32 ∧
    ¬KnownFunc (byteAt F 20) :=
  ⟨_, rsp06.set 20 0x05, candidate_of _ [] 0 (by decide) (by decide) (by decide) (by decide), by decide⟩

/-- `BAD06` under the default scope. -/
theorem witness_StrictPolicy_fullInner : ∃ (s : State) (F : List Byte), Candidate s F ∧ byteAt F 19 = 0x32 ∧
    KnownFunc (byteAt F 20) ∧ s.ctrl.getLsbD 1 = false ∧ s.ctrl.getLsbD 2 = false ∧
    crc16 s.cfg (slice F 8 (F.length - 2)) ≠ rcrc s.cfg.crcWireOrder F (F.length - 2) :=
  ⟨holding (bad06 ++ []), bad06, candidate_of _ [] 0 (by decide) (by decide) (by decide) (by decide), by decide +kernel⟩

/-- `RSP06` under FUNC_DATA (section 7.2, its last row). -/
theorem witness_StrictPolicy_funcData : ∃ (s : State) (F : List Byte), Candidate s F ∧ byteAt F 19 = 0x32 ∧
    KnownFunc (byteAt F 20) ∧ s.ctrl.getLsbD 1 = false ∧ s.ctrl.getLsbD 2 = true ∧
    crc16 s.cfg (slice F 20 (F.length - 2)) ≠ rcrc s.cfg.crcWireOrder F (F.length - 2) :=
  ⟨holding (rsp06 ++ []) 4, rsp06, candidate_rsp06 4, by decide +kernel⟩

theorem witness_FlagPolicy : ∃ (s : State) (F : List Byte), Candidate s F ∧ byteAt F 19 = 0x32 ∧ KnownFunc (byteAt F 20) ∧
    s.ctrl.getLsbD 1 = true ∧ frameCrc s.cfg s.ctrl F ≠ frameCrcField s.cfg F ∧
    LayoutOk s.ctrl (byteAt F 20) (F.length - 23) :=
  ⟨holding (bad06 ++ []) 2, bad06, candidate_of _ [] 2 (by decide) (by decide) (by decide) (by decide), by decide +kernel⟩

/-- `W6`: the layout is wrong and the CRC right. -/
theorem witness_BadLayout_crc_ok : ∃ (s : State) (F : List Byte), Candidate s F ∧ byteAt F 19 = 0x32 ∧
    KnownFunc (byteAt F 20) ∧ ¬LayoutOk s.ctrl (byteAt F 20) (F.length - 23) ∧
    frameCrc s.cfg s.ctrl F = frameCrcField s.cfg F :=
  ⟨holding (w6 ++ []), w6, candidate_of _ [] 0 (by decide) (by decide) (by decide) (by decide), by decide +kernel⟩

/-- `W6` with its last byte changed, under STRICT. -/
theorem witness_BadLayout_crc_bad : ∃ (s : State) (F : List Byte), Candidate s F ∧ byteAt F 19 = 0x32 ∧
    KnownFunc (byteAt F 20) ∧ ¬LayoutOk s.ctrl (byteAt F 20) (F.length - 23) ∧
    frameCrc s.cfg s.ctrl F ≠ frameCrcField s.cfg F ∧ s.ctrl.getLsbD 1 = false :=
  ⟨holding (w6.set 28 0x56 ++ []), w6.set 28 0x56, candidate_of _ [] 0 (by decide) (by decide) (by decide) (by decide),
    by decide +kernel⟩

/-- The smallest frame, `Z3`, under VALUES_ONLY. -/
theorem witness_Emission : ∃ (s : State) (F : List Byte), Candidate s F ∧ F.length = 23 ∧ byteAt F 19 = 0x32 ∧
    KnownFunc (byteAt F 20) ∧ frameCrc s.cfg s.ctrl F = frameCrcField s.cfg F ∧
    LayoutOk s.ctrl (byteAt F 20) (F.length - 23) :=
  ⟨holding (z3 ++ []) 8, z3, candidate_of _ [] 8 (by decide) (by decide) (by decide) (by decide), by decide +kernel⟩

/-- The premises that the three statements of a received frame share. -/
abbrev AtHead (s : State) (func : FuncCode) (fr : RxFrame) : Prop :=
  s.errValid = false ∧ fr.wf s.cfg = true ∧ receivedFrame s.cfg func fr <+: s.buf

/-- The CRC the decoder computes for a received frame. -/
abbrev crcOf (s : State) (func : FuncCode) (fr : RxFrame) : Half := crc16 s.cfg (coverage s.ctrl func fr)

theorem witness_ReadHoldingFrame_mismatch :
    AtHead (buffered .readHolding (zeros 4) 0) .readHolding (zeros 4) ∧
    crcOf (buffered .readHolding (zeros 4) 0) .readHolding (zeros 4) ≠ (zeros 4).crc := by decide +kernel

/-- `RSP03`, whose CRC is right, in the default layout; and four data bytes, the fewest, under FLAG. -/
theorem witness_ReadHoldingFrame_baseCount :
    AtHead (buffered .readHolding fr03 0) .readHolding fr03 ∧
    crcOf (buffered .readHolding fr03 0) .readHolding fr03 = fr03.crc ∧ fr03.data.length % 2 = 0 ∧
    AtHead (buffered .readHolding (zeros 4) 2) .readHolding (zeros 4) ∧ (zeros 4).data.length = 4 := by decide +kernel

/-- No data bytes, and the most there can be. -/
theorem witness_ReadHoldingFrame_valuesOnly :
    AtHead (buffered .readHolding (zeros 0) 0xA) .readHolding (zeros 0) ∧ (zeros 0).data.length % 2 = 0 ∧
    AtHead (buffered .readHolding (zeros 254) 0xA) .readHolding (zeros 254) ∧ (zeros 254).data.length = 254 := by
  decide +kernel

theorem witness_ReadHoldingFrame_layout :
    AtHead (buffered .readHolding (zeros 5) 0xA) .readHolding (zeros 5) ∧ (zeros 5).data.length % 2 = 1 ∧
    AtHead (buffered .readHolding (zeros 2) 2) .readHolding (zeros 2) ∧ (zeros 2).data.length < 4 := by decide +kernel

theorem witness_ReadInputFrame_mismatch :
    AtHead (buffered .readInput (zeros 4) 0) .readInput (zeros 4) ∧
    crcOf (buffered .readInput (zeros 4) 0) .readInput (zeros 4) ≠ (zeros 4).crc := by decide +kernel

theorem witness_ReadInputFrame_baseCount :
    AtHead (buffered .readInput fr04 0) .readInput fr04 ∧ crcOf (buffered .readInput fr04 0) .readInput fr04 = fr04.crc ∧
    fr04.data.length % 2 = 0 ∧ AtHead (buffered .readInput (zeros 4) 2) .readInput (zeros 4) := by decide +kernel

theorem witness_ReadInputFrame_valuesOnly :
    AtHead (buffered .readInput (zeros 0) 0xA) .readInput (zeros 0) ∧
    AtHead (buffered .readInput (zeros 254) 0xA) .readInput (zeros 254) := by decide +kernel

theorem witness_ReadInputFrame_layout :
    AtHead (buffered .readInput (zeros 5) 0xA) .readInput (zeros 5) ∧
    AtHead (buffered .readInput (zeros 2) 2) .readInput (zeros 2) := by decide +kernel

theorem witness_WriteSingleFrame_mismatch :
    AtHead (buffered .writeSingle (zeros 4) 0) .writeSingle (zeros 4) ∧
    crcOf (buffered .writeSingle (zeros 4) 0) .writeSingle (zeros 4) ≠ (zeros 4).crc := by decide +kernel

theorem witness_WriteSingleFrame_ok :
    AtHead (buffered .writeSingle fr06 0) .writeSingle fr06 ∧
    crcOf (buffered .writeSingle fr06 0) .writeSingle fr06 = fr06.crc ∧ fr06.data.length = 4 := by decide +kernel

theorem witness_WriteSingleFrame_layout :
    AtHead (buffered .writeSingle (zeros 5) 2) .writeSingle (zeros 5) ∧ (zeros 5).data.length ≠ 4 ∧
    AtHead (buffered .writeSingle (zeros 3) 0xA) .writeSingle (zeros 3) ∧ (zeros 3).data.length ≠ 4 := by decide +kernel

/-- An error raised behind two discards (section 7.4). -/
theorem witness_ErrorEntry : ∃ s t : State, s.errValid = false ∧ exec .tryExtract s = .next t ∧
    (t.errValid = true ∧ t.discardCount = 2) :=
  ⟨holding ([0x01, 0x02] ++ [0x59, 0x59, 0x00, 0x01, 0xFF, 0xFF, 0x01, 0x02]) 1, _, rfl, rfl, by decide +kernel⟩

theorem witness_OnlySessionReset : ∃ (is : List Instr) (s : State),
    s.errValid = true ∧ .sessionReset ∉ is ∧ is ≠ [] :=
  ⟨[.feed 0x59, .tryExtract, .regWrite 0x00 2, .rxWriteSingle fr06], latched rsp06, by decide⟩

theorem reset_inv : State.reset.Inv := ⟨by decide, by decide, ⟨rfl, rfl⟩, by decide⟩

/-- A state with everything in it that the invariant speaks of: a latched error, all of `CTRL`, a counted discard. -/
theorem witness_Inv : ∃ s : State, s.Inv ∧ s.errValid = true ∧ s.discardCount ≠ 0 ∧ s.ctrl = 0xF ∧ s.buf ≠ [] :=
  ⟨{ latched rsp06 0xF with discardCount := 3, resyncSeen := true },
    ⟨by decide, by decide, ⟨.checksumMismatch, by decide⟩, by decide⟩, by decide⟩

/-- The `STATUS` statement's clause on the codes with no error latched. -/
theorem witness_Status_unlatched : ∃ s : State, s.Inv ∧ s.errValid = false := ⟨State.reset, reset_inv, rfl⟩

theorem witness_EveryStepKeeps : ∃ s t : State, s.Inv ∧ step s = .next t ∧ t.buf ≠ s.buf :=
  ⟨asked [.command 0x200000000059] State.reset, _, ⟨by decide, by decide, ⟨rfl, rfl⟩, by decide⟩, rfl, by decide⟩

/-- Each element changes under some command. -/
theorem witness_ElementsAreWritten :
    (nextOf (exec (.regWrite 0x00 5) State.reset)).map (fun t => t.ctrl) ≠ some State.reset.ctrl ∧
    (nextOf (exec (.feed 0x59) State.reset)).map (fun t => t.buf) ≠ some State.reset.buf ∧
    (nextOf (exec .tryExtract (holding bad06))).map (fun t => t.errValid) = some true ∧
    (nextOf (exec .tryExtract (holding rsp06))).map (fun t => t.frameCount) = some 1 := by decide +kernel

/-- The three ways a byte leaves, each taken (sections 7.2, 7.4, 8). -/
theorem witness_BytesLeave :
    (nextOf (exec .sessionReset (latched rsp06))).map (fun t => t.buf) = some [] ∧
    (nextOf (exec .tryExtract (holding (rsp06 ++ rsp03)))).map (fun t => t.buf) = some rsp03 ∧
    (nextOf (exec .tryExtract (holding (List.replicate 10 0) 1))).map (fun t => (t.buf.length, t.discardCount)) =
      some (7, 3) := by decide +kernel

theorem witness_FrameCount_wraps :
    (nextOf (exec .tryExtract { holding rsp06 with frameCount := 0xFFFFFFFF })).map (fun t => t.frameCount) = some 0 := by
  decide +kernel

/-- A flagged frame and a first discard. -/
theorem witness_StickyBits :
    (nextOf (exec .tryExtract (holding bad06 2))).map (fun t => t.crcFlagged) = some true ∧
    (nextOf (exec .tryExtract (holding (List.replicate 8 0) 1))).map (fun t => t.resyncSeen) = some true ∧
    (nextOf (exec .tryExtract { holding rsp06 with resyncSeen := true })).map (fun t => t.resyncSeen) = some true := by
  decide +kernel

theorem witness_TryExtractReadsOnly : ∃ s s' : State, SameInputs s s' ∧ s.frameCount ≠ s'.frameCount ∧ s.buf ≠ [] :=
  ⟨holding rsp06, { holding rsp06 with frameCount := 7, resyncSeen := true }, by decide⟩

/-- The newest response is a frame, and the only one. -/
theorem frame_first (t : State) (h : t.gotFrame = true ∧ t.responses.length = 1) : ∃ df, t.responses = .frame df :: [] := by
  obtain ⟨h1, h2⟩ := h
  unfold State.gotFrame at h1
  split at h1
  · next df rest hr =>
    refine ⟨df, ?_⟩
    rw [hr, List.length_cons] at h2
    rw [hr, List.length_eq_zero_iff.1 (Nat.succ.inj h2)]
  · cases h1

theorem witness_BytesBehind : ∃ s t : State, exec .tryExtract s = .next t ∧ ∃ df, t.responses = .frame df :: s.responses :=
  ⟨holding rsp06, _, rfl, frame_first _ (by decide +kernel)⟩

theorem valid_rsp06 : ValidFrame Config.default 0 rsp06 :=
  ⟨by decide, by decide, by decide, by decide, by decide, by decide, .inl (by decide +kernel), by decide⟩

theorem valid_rsp03 : ValidFrame Config.default 0 rsp03 :=
  ⟨by decide, by decide, by decide, by decide, by decide, by decide, .inl (by decide +kernel), by decide⟩

/-- `Z3`, the shortest frame, valid under VALUES_ONLY and SCAN. -/
theorem valid_z3 : ValidFrame Config.default 9 z3 :=
  ⟨by decide, by decide, by decide, by decide, by decide, by decide, .inl (by decide +kernel), by decide⟩

theorem witness_SplitFrames : ∃ (s : State) (V A B : List Byte), s.errValid = false ∧ s.buf = [] ∧
    ValidFrame s.cfg s.ctrl V ∧ V = A ++ B ∧ B.length = 1 :=
  ⟨State.reset, rsp06, rsp06.take 26, rsp06.drop 26, rfl, rfl, valid_rsp06, by decide, by decide⟩

theorem witness_SplitFrames_scan : ∃ (s : State) (V A B : List Byte), s.errValid = false ∧ s.buf = [] ∧
    s.ctrl.getLsbD 0 = true ∧ ValidFrame s.cfg s.ctrl V ∧ V = A ++ B ∧ A = [] ∧ B ≠ [] :=
  ⟨holding [] 9, z3, [], z3, rfl, rfl, rfl, valid_z3, by decide⟩

theorem witness_TwoFrames : ∃ (s : State) (V W : List Byte), s.errValid = false ∧ s.buf = [] ∧ ValidFrame s.cfg s.ctrl V ∧
    ValidFrame s.cfg s.ctrl W ∧ V.length + W.length ≤ s.cfg.bufCap ∧ V ≠ W :=
  ⟨State.reset, rsp03, rsp06, rfl, rfl, valid_rsp03, valid_rsp06, by decide, by decide⟩

/-- The first and last byte of each sentinel. -/
theorem witness_ChangedSentinel (k : Nat) (_h : k = 0 ∨ k = 3 ∨ k = 6 ∨ k = 7) : ∃ (s : State) (V : List Byte) (v : Byte),
    s.errValid = false ∧ s.ctrl.getLsbD 0 = false ∧ ValidFrame s.cfg s.ctrl V ∧ s.buf = V.set k v ∧ v ≠ byteAt V k :=
  ⟨holding (rsp06.set k (byteAt rsp06 k ^^^ 0xFF)), rsp06, _, rfl, (by decide : (0 : Word32).getLsbD 0 = false),
    valid_rsp06, rfl, by
    rcases _h with rfl | rfl | rfl | rfl <;> decide⟩

/-- The first covered byte, the address, the function code, and the last byte of the CRC field. -/
theorem witness_ChangedCovered (k : Nat) (_h : k = 8 ∨ k = 19 ∨ k = 20 ∨ k = 26) : ∃ (s : State) (V : List Byte) (v : Byte),
    s.errValid = false ∧ s.ctrl.getLsbD 1 = false ∧ s.cfg.crcPoly.getLsbD 0 = true ∧ ValidFrame s.cfg s.ctrl V ∧
    s.buf = V.set k v ∧ v ≠ byteAt V k ∧ (if s.ctrl.getLsbD 2 then 20 else 8) ≤ k ∧ k < V.length :=
  ⟨holding (rsp06.set k (byteAt rsp06 k ^^^ 0x5A)), rsp06, _, rfl, (by decide : (0 : Word32).getLsbD 1 = false),
    (by decide : (0x8005 : Half).getLsbD 0 = true), valid_rsp06, rfl, by
    rcases _h with rfl | rfl | rfl | rfl <;> decide⟩

/-- `REQ` is valid under FUNC_DATA, where byte 20 is the first covered one. -/
theorem valid_req : ValidFrame Config.default 4 req :=
  ⟨by decide, by decide, by decide, by decide, by decide, by decide, .inl (by decide +kernel), by decide⟩

/-- A changed function code that is still one of the three. -/
theorem witness_ChangedCovered_funcData : ∃ (s : State) (V : List Byte), s.errValid = false ∧ s.ctrl.getLsbD 1 = false ∧
    s.ctrl.getLsbD 2 = true ∧ s.cfg.crcPoly.getLsbD 0 = true ∧ ValidFrame s.cfg s.ctrl V ∧ s.buf = V.set 20 0x04 ∧
    (0x04 : Byte) ≠ byteAt V 20 :=
  ⟨holding (req.set 20 0x04) 4, req, rfl, rfl, rfl, rfl, valid_req, rfl, by decide⟩

theorem witness_FullBuffer : ∃ s : State, s.errValid = false ∧ s.buf.length = s.cfg.bufCap :=
  ⟨{ holding rsp06 with cfg := small }, by decide⟩

theorem witness_Loopback : ∃ s t : State, exec (.encode 0x03 0x0020 6) s = .next t ∧
    (∃ F, t.responses = .ok F :: s.responses) ∧ s.errValid = false ∧ s.buf = [] ∧ s.ctrl.getLsbD 2 = true ∧
    s.ctrl.getLsbD 3 = false :=
  ⟨holding [] 4, _, rfl, ⟨_, by rfl⟩, rfl, rfl, rfl, rfl⟩

theorem witness_Loopback_fullInner : ∃ s t : State, exec (.encode 0x03 0x0020 6) s = .next t ∧
    (∃ F, t.responses = .ok F :: s.responses) ∧ s.errValid = false ∧ s.buf = [] ∧ s.cfg = Config.default ∧
    s.ctrl.getLsbD 1 = false ∧ s.ctrl.getLsbD 2 = false :=
  ⟨State.reset, _, rfl, ⟨_, by rfl⟩, rfl, rfl, rfl, rfl, rfl⟩

theorem witness_CrcDetects : ∃ (cfg : Config) (B : List Byte) (k : Nat) (v : Byte), cfg.crcPoly.getLsbD 0 = true ∧
    k + 1 = B.length ∧ v ≠ byteAt B k := ⟨Config.default, [0x03, 0x00], 1, 0x01, by decide⟩

end Sys2Proof.Tests
end

section
/-! PROOFS. The reset table and the `STATUS` register (10_state.md rules R25, R38): the answers of SESSION_RESET and of an access to
`STATUS`, what the invariant says of the elements `STATUS` shows, and `STATUS` as the concatenation of its fields. -/

namespace Sys2Proof.Machine

section
variable (s : State)

/-! ### SESSION_RESET, and an access to `STATUS` -/

theorem exec_sessionReset : exec .sessionReset s = .next (s.endSession.respond .ack) := rfl

theorem exec_regRead_status : exec (.regRead 0x01) s = .next (answered s (.value (statusWord s))) := rfl

theorem exec_regWrite_status (value : Word32) : exec (.regWrite 0x01 value) s = .next (answered s .illegal) := rfl

/-! ### What the invariant says of the elements `STATUS` shows -/

variable {s}

/-- `BUF_LEN` fits its 16-bit field: the buffer is within `BUF_CAP`, which 00_scope.md rule R9 bounds by 65535. -/
theorem State.Inv.buf_length_lt (h : s.Inv) : s.buf.length < 2 ^ 16 := by
  obtain ⟨-, -, -, -, hcap⟩ := s.cfg.bounds
  have hbuf := h.buf_le
  omega

theorem State.Inv.codes_zero_of_unlatched (h : s.Inv) (hv : s.errValid = false) : s.errCode = 0 ∧ s.errDetail = 0 := by
  simpa [State.LatchOk, hv] using h.latch_ok

/-! ### The fields of `STATUS` -/

variable (s)

theorem bit32_eq_setWidth_ofBool (b : Bool) : bit32 b = (BitVec.ofBool b).setWidth 32 := by cases b <;> rfl

/-- The row of rule R25's table from bit 31 down: no field reaches into another, and the gaps are 0. -/
theorem statusWord_eq_append : statusWord s =
    BitVec.ofNat 16 s.buf.length ++ 0#2 ++ BitVec.ofBool s.resyncSeen ++ BitVec.ofBool s.crcFlagged
      ++ s.errDetail ++ s.errCode ++ 0#3 ++ BitVec.ofBool s.errValid := by
  apply BitVec.eq_of_getLsbD_eq
  intro i hi
  simp only [statusWord, bit32_eq_setWidth_ofBool, BitVec.getLsbD_or, BitVec.getLsbD_shiftLeft, BitVec.getLsbD_setWidth,
    BitVec.getLsbD_ofNat, BitVec.getLsbD_append]
  interval_cases i <;> simp

theorem statusWord_fields :
    (statusWord s).getLsbD 0 = s.errValid ∧ (statusWord s).extractLsb' 1 3 = 0#3 ∧
    (statusWord s).extractLsb' 4 4 = s.errCode ∧ (statusWord s).extractLsb' 8 4 = s.errDetail ∧
    (statusWord s).getLsbD 12 = s.crcFlagged ∧ (statusWord s).getLsbD 13 = s.resyncSeen ∧
    (statusWord s).extractLsb' 14 2 = 0#2 ∧ (statusWord s).extractLsb' 16 16 = BitVec.ofNat 16 s.buf.length := by
  simp only [statusWord_eq_append, BitVec.getLsbD_append, BitVec.extractLsb'_append_eq_ite]
  simp

end

/-- Settles O38: an access to `STATUS` answers by `statusWord`, whose fields are those of the concatenation; the invariant bounds
the length and clears the codes of an unlatched error. -/
theorem statusBitsAreAssembledFromTheState : Obligations.StatusBitsAreAssembledFromTheState := by
  intro s hinv
  obtain ⟨hvalid, hlow, hcode, hdetail, hflagged, hseen, hhigh, hlen⟩ := statusWord_fields s
  have hlen' : ((statusWord s).extractLsb' 16 16).toNat = s.buf.length := by
    rw [hlen, BitVec.toNat_ofNat, Nat.mod_eq_of_lt hinv.buf_length_lt]
  refine ⟨⟨statusWord s, exec_regRead_status s, hvalid, hlow, hcode, hdetail, hflagged, hseen, hhigh, hlen', ?_⟩,
    exec_regWrite_status s⟩
  rw [hcode, hdetail]
  exact hinv.codes_zero_of_unlatched

/-- Settles O1: the power-on column is the reset state, and SESSION_RESET answers `State.endSession`. -/
theorem resetTableOfEveryElement : Obligations.ResetTableOfEveryElement :=
  ⟨by decide, fun s => ⟨_, exec_sessionReset s, by simp⟩⟩

end Sys2Proof.Machine
end

section
/-! PROOFS. The CRC field (40_crc16.md rule R103): its two bytes in each wire order, and the value read back from them. -/

namespace Sys2Proof.Machine

theorem wcrc_be (v : Half) : wcrc .be v = [v.extractLsb' 8 8, v.extractLsb' 0 8] := rfl

theorem wcrc_le (v : Half) : wcrc .le v = [v.extractLsb' 0 8, v.extractLsb' 8 8] := rfl

/-- Settles O58: the bytes of each order are those `wcrc` writes, and `rcrc_at` reads the field back behind any bytes `A`. -/
theorem crcFieldIsReadAsWritten : Obligations.CrcFieldIsReadAsWritten := by
  refine ⟨fun v => ⟨wcrc_be v, wcrc_le v⟩, fun order v A B => ?_⟩
  rw [List.append_assoc]
  exact rcrc_at order v A B A.length rfl

end Sys2Proof.Machine
end

section
/-! PROOFS. ENCODE and the three requests (41_encoder.md rules R120 to R128): the 27 bytes of a request, ENCODE's answer for the
reads, the write and the unknown function codes, and each request as ENCODE with its function code. -/

namespace Sys2Proof.Machine

section
variable (cfg : Config) (func : Byte) (base arg : Half)

/-- The bytes of 30_encoding.md rule R72, the `len` field being 21. -/
theorem requestFrame_bytes : requestFrame cfg func base arg =
    [0x59, 0x59, 0x00, 0x01, 0x00, 0x15, 0x01, 0x02, 0x41, 0x42, 0x31, 0x32, 0x33, 0x34, 0x47, 0x35, 0x36, 0x37]
      ++ [cfg.txPad, 0x32, func] ++ w16 base ++ w16 arg
      ++ wcrc cfg.crcWireOrder (crc16 cfg ([func] ++ w16 base ++ w16 arg)) := by
  have hlen : w16 (BitVec.ofNat 16 21) = [0x00, 0x15] := by decide
  simp [requestFrame, frameOf_eq, requestCoverage, protocol, hlen]

/-! ### ENCODE's answer -/

variable {func}

theorem encodeRequest_unknown (hf : ¬KnownFunc func) : encodeRequest cfg func base arg = .invalidRequest 0 := by
  have hnone : funcOfByte func = none := by
    simpa only [knownFunc_iff, ← Option.isSome_iff_exists, Option.not_isSome_iff_eq_none] using hf
  simp only [encodeRequest, hnone, requestDetail]

/-- For both reads: the checks of rule R121 in their order, then the frame. -/
theorem encodeRequest_read (hf : func = 0x03 ∨ func = 0x04) : encodeRequest cfg func base arg =
    if arg = 0 then .invalidRequest 1
    else if arg.toNat > cfg.maxCount then .invalidRequest 2
    else if base.toNat + arg.toNat > 0x10000 then .invalidRequest 3
    else .ok (requestFrame cfg func base arg) := by
  obtain ⟨code, hcode, herror⟩ : ∃ code, funcOfByte func = some code ∧ requestError cfg code base arg =
      requestError cfg .readHolding base arg := by
    obtain rfl | rfl := hf
    · exact ⟨.readHolding, rfl, rfl⟩
    · exact ⟨.readInput, rfl, rfl⟩
  simp only [encodeRequest, hcode, herror]
  rw [requestError]
  split_ifs <;> rfl

theorem encodeRequest_write : encodeRequest cfg 0x06 base arg = .ok (requestFrame cfg 0x06 base arg) := rfl

end

/-! ### What the instructions answer -/

section
variable (s : State) (func : Byte) (base arg : Half)

theorem sameBlock_answered (r : Response) : SameBlock s (answered s r) := by simp [SameBlock, answered]

theorem exec_encode : exec (.encode func base arg) s = .next (answered s (encodeRequest s.cfg func base arg)) := rfl

theorem exec_txReadHolding : exec (.txReadHolding base arg) s = exec (.encode 0x03 base arg) s := rfl

theorem exec_txReadInput : exec (.txReadInput base arg) s = exec (.encode 0x04 base arg) s := rfl

theorem exec_txWriteSingle : exec (.txWriteSingle base arg) s = exec (.encode 0x06 base arg) s := rfl

end

/-- Settles O14: an unknown function code fails the first check, a read goes on to the other three, the write to its frame. -/
theorem encodeAnswersInTheOrderOfItsChecks : Obligations.EncodeAnswersInTheOrderOfItsChecks := by
  intro s func base arg
  rw [exec_encode, ← requestFrame_bytes]
  by_cases hk : KnownFunc func
  · rw [if_neg (not_not.2 hk)]
    obtain hread | rfl := or_assoc.2 hk
    · have hne : func ≠ 0x06 := by rcases hread with rfl | rfl <;> decide
      simp only [encodeRequest_read s.cfg base arg hread, hne, ne_eq, not_false_eq_true, true_and]
    · simp only [encodeRequest_write, ne_eq, not_true_eq_false, false_and, if_false]
  · rw [if_pos hk, encodeRequest_unknown s.cfg base arg hk]

/-- Settles O16: ENCODE's answer for a read, with function code `0x03`. -/
theorem readHoldingRequestResult : Obligations.ReadHoldingRequestResult := by
  intro s base count
  rw [exec_txReadHolding, exec_encode, encodeRequest_read s.cfg base count (.inl rfl), requestFrame_bytes]

/-- Settles O17: ENCODE's answer for a read, with function code `0x04`. -/
theorem readInputRequestResult : Obligations.ReadInputRequestResult := by
  intro s base count
  rw [exec_txReadInput, exec_encode, encodeRequest_read s.cfg base count (.inr rfl), requestFrame_bytes]

/-- Settles O18: ENCODE's answer for the write, which no check concerns. -/
theorem writeSingleRequestResult : Obligations.WriteSingleRequestResult := by
  intro s reg value
  rw [exec_txWriteSingle, exec_encode, encodeRequest_write, requestFrame_bytes]

/-- Settles O19: the response is `encodeRequest`, which takes the configuration and the operands and no state; answering it writes
only the host's record. -/
theorem encodeIsPure : Obligations.EncodeIsPure := by
  intro cfg func base arg
  refine ⟨encodeRequest cfg func base arg, ?_⟩
  rintro s rfl
  exact ⟨_, exec_encode s func base arg, rfl, sameBlock_answered s _, rfl, rfl⟩

end Sys2Proof.Machine
end

section
/-! PROOFS. FEED (42_header_splitter.md rules R140 to R142): its answer with room in the buffer and with `BUF_CAP` bytes buffered,
whether or not an error is latched. -/

namespace Sys2Proof.Machine

section
variable {s : State} (b : Byte)

theorem exec_feed_full (h : s.buf.length = s.cfg.bufCap) : exec (.feed b) s = .next (answered s .full) :=
  congrArg Host.Outcome.next (if_pos h)

theorem exec_feed_room (h : s.buf.length ≠ s.cfg.bufCap) : exec (.feed b) s = .next ((s.bufPush b).respond .ack) :=
  congrArg Host.Outcome.next (if_neg h)

end

/-- Settles O20: FEED's only test is of the buffer's length against `BUF_CAP`; the push and the answer write `buf` and the host's
record. -/
theorem feedAppendsOrAnswersFull : Obligations.FeedAppendsOrAnswersFull := by
  intro s b
  split_ifs with hfull
  · exact exec_feed_full b hfull
  · exact exec_feed_room b hfull

end Sys2Proof.Machine
end

section
/-! PROOFS. TRY_EXTRACT up to the candidate frame (43_decoder.md rules R170 to R175): the latch, the classes of the header parser
that end the command, and the sentinel search. -/

namespace Sys2Proof.Machine

/-! ### The classes of the header parser -/

section
variable {cfg : Config} {B : List Byte}

theorem headerParse_isBad_iff_not_goodHeader : (headerParse cfg B).isBad = true ↔ 8 ≤ B.length ∧ ¬GoodHeader B := by
  rw [headerParse_isBad_iff, protocol_h1, protocol_h2]
  tauto

theorem headerParse_isBad_of_short (h : B.length < 8) : (headerParse cfg B).isBad = false := by
  rw [(headerParse_short_iff cfg B).2 h]; rfl

/-- Past the length test: the sentinels in their order, then the declared length. -/
theorem headerParse_of_ge (h8 : 8 ≤ B.length) : headerParse cfg B =
    if slice B 0 4 ≠ [0x59, 0x59, 0x00, 0x01] then .badH1
    else if slice B 6 8 ≠ [0x01, 0x02] then .badH2
    else if cfg.maxFrameLen < declaredTotal B then .tooLong
    else if declaredTotal B < 23 then .tooShort
    else if B.length < declaredTotal B then .incomplete (declaredTotal B)
    else .complete (declaredTotal B) :=
  if_neg (Nat.not_lt.2 h8)

theorem headerParse_of_badH1 (h8 : 8 ≤ B.length) (h1 : slice B 0 4 ≠ [0x59, 0x59, 0x00, 0x01]) :
    headerParse cfg B = .badH1 := by
  rw [headerParse_of_ge h8, if_pos h1]

theorem headerParse_of_badH2 (h8 : 8 ≤ B.length) (h1 : slice B 0 4 = [0x59, 0x59, 0x00, 0x01])
    (h2 : slice B 6 8 ≠ [0x01, 0x02]) : headerParse cfg B = .badH2 := by
  rw [headerParse_of_ge h8, if_neg (not_not.2 h1), if_pos h2]

/-- Behind good sentinels only the declared length and the bytes at hand count. -/
theorem GoodHeader.headerParse_eq (h : GoodHeader B) : headerParse cfg B =
    if cfg.maxFrameLen < declaredTotal B then .tooLong
    else if declaredTotal B < 23 then .tooShort
    else if B.length < declaredTotal B then .incomplete (declaredTotal B)
    else .complete (declaredTotal B) := by
  obtain ⟨h8, h1, h2⟩ := h
  rw [headerParse_of_ge h8, if_neg (not_not.2 h1), if_neg (not_not.2 h2)]

end

/-! ### The command, by the class of the header -/

section
variable {s : State}

theorem exec_tryExtract_latched (h : s.errValid = true) :
    exec .tryExtract s = .next (answered s (.error s.errCode s.errDetail)) :=
  congrArg Host.Outcome.next (if_pos h)

/-- Where the search discards nothing the command is one pass. -/
theorem exec_tryExtract_of_not_bad (hv : s.errValid = false) (hb : (headerParse s.cfg s.buf).isBad = false) :
    exec .tryExtract s = .next s.extract := by
  rw [exec_tryExtract_unlatched hv, State.search_of_not_bad s hb]

theorem exec_tryExtract_of_terminate (hv : s.errValid = false) (ht : scanMode s.ctrl = false) :
    exec .tryExtract s = .next s.extract := by
  rw [exec_tryExtract_unlatched hv, State.search_of_terminate s ht]

theorem exec_tryExtract_short (hv : s.errValid = false) (h : s.buf.length < 8) :
    exec .tryExtract s = .next (answered s .needMore) := by
  rw [exec_tryExtract_of_not_bad hv (headerParse_isBad_of_short h), State.extract, (headerParse_short_iff _ _).2 h]
  rfl

theorem exec_tryExtract_badH1 (hv : s.errValid = false) (ht : scanMode s.ctrl = false) (h8 : 8 ≤ s.buf.length)
    (h1 : slice s.buf 0 4 ≠ [0x59, 0x59, 0x00, 0x01]) : exec .tryExtract s = .next (withError s 1 0) := by
  rw [exec_tryExtract_of_terminate hv ht, State.extract, headerParse_of_badH1 h8 h1]
  rfl

theorem exec_tryExtract_badH2 (hv : s.errValid = false) (ht : scanMode s.ctrl = false) (h8 : 8 ≤ s.buf.length)
    (h1 : slice s.buf 0 4 = [0x59, 0x59, 0x00, 0x01]) (h2 : slice s.buf 6 8 ≠ [0x01, 0x02]) :
    exec .tryExtract s = .next (withError s 1 1) := by
  rw [exec_tryExtract_of_terminate hv ht, State.extract, headerParse_of_badH2 h8 h1 h2]
  rfl

/-- Under `SCAN` a bad header costs one byte and the command starts again (rule R174). -/
theorem exec_tryExtract_scan (hv : s.errValid = false) (hs : scanMode s.ctrl = true) (h8 : 8 ≤ s.buf.length)
    (hbad : ¬GoodHeader s.buf) : exec .tryExtract s = exec .tryExtract s.discardByte := by
  rw [exec_tryExtract_unlatched hv, exec_tryExtract_unlatched (s := s.discardByte) hv,
    State.search_of_bad s hs (headerParse_isBad_iff_not_goodHeader.2 ⟨h8, hbad⟩)]

theorem exec_tryExtract_tooLong (hv : s.errValid = false) (hg : GoodHeader s.buf)
    (hT : s.cfg.maxFrameLen < declaredTotal s.buf) : exec .tryExtract s = .next (withError s 2 0) := by
  rw [exec_tryExtract_of_not_bad hv hg.isBad_eq, State.extract, hg.headerParse_eq, if_pos hT]
  rfl

/-- A frame too short is never too long as well: `MAX_FRAME_LEN` is at least 27 (00_scope.md rule R9). -/
theorem exec_tryExtract_tooShort (hv : s.errValid = false) (hg : GoodHeader s.buf) (hT : declaredTotal s.buf < 23) :
    exec .tryExtract s = .next (withError s 6 0) := by
  obtain ⟨-, -, hmax, -, -⟩ := s.cfg.bounds
  rw [exec_tryExtract_of_not_bad hv hg.isBad_eq, State.extract, hg.headerParse_eq, if_neg (by omega), if_pos hT]
  rfl

theorem exec_tryExtract_incomplete (hv : s.errValid = false) (hg : GoodHeader s.buf) (hlo : 23 ≤ declaredTotal s.buf)
    (hhi : declaredTotal s.buf ≤ s.cfg.maxFrameLen) (hlen : s.buf.length < declaredTotal s.buf) :
    exec .tryExtract s = .next (answered s .needMore) := by
  rw [exec_tryExtract_of_not_bad hv hg.isBad_eq, State.extract, hg.headerParse_eq, if_neg (by omega), if_neg (by omega),
    if_pos hlen]
  rfl

/-! ### One pass raises `BadHeader` on a bad header alone -/

theorem State.raise_responses_ne_badHeader {e : FrameError} (he : errorCode e ≠ 1) (detail : Nibble) :
    (s.raise e).responses ≠ .error 1 detail :: s.responses := by
  rw [State.raise_responses, ne_eq, List.cons.injEq, Response.error.injEq]
  exact fun h => he h.1.1

theorem State.decodeFrame_responses_ne_badHeader (func : FuncCode) (fr : RxFrame) (detail : Nibble) :
    (s.decodeFrame func fr).responses ≠ .error 1 detail :: s.responses := by
  unfold State.decodeFrame
  simp only
  split
  · exact State.raise_responses_ne_badHeader (by decide) detail
  · split
    · exact State.raise_responses_ne_badHeader (by decide) detail
    · simp

theorem State.judge_responses_ne_badHeader (F : List Byte) (detail : Nibble) :
    (s.judge F).responses ≠ .error 1 detail :: s.responses := by
  unfold State.judge
  split
  · exact State.raise_responses_ne_badHeader (by decide) detail
  · split
    · exact State.raise_responses_ne_badHeader (by decide) detail
    · exact State.decodeFrame_responses_ne_badHeader _ _ detail

theorem State.extract_responses_ne_badHeader (hb : (headerParse s.cfg s.buf).isBad = false) (detail : Nibble) :
    s.extract.responses ≠ .error 1 detail :: s.responses := by
  unfold State.extract
  split
  case h_1 | h_6 => simp
  case h_2 hclass | h_3 hclass => simp [hclass, HeaderClass.isBad] at hb
  case h_4 | h_5 => exact State.raise_responses_ne_badHeader (by decide) detail
  case h_7 => exact State.judge_responses_ne_badHeader _ detail

/-- One pass discards nothing: only the search does. -/
theorem State.extract_discards : s.extract.discardCount = s.discardCount ∧ s.extract.resyncSeen = s.resyncSeen := by
  obtain h | ⟨e, h⟩ | ⟨total, df, -, -, -, -, -, h⟩ := s.extract_cases <;> simp [h]

end

/-- Settles O21: the latch is the command's first test. -/
theorem latchedErrorIsReturnedAgain : Obligations.LatchedErrorIsReturnedAgain := fun _ => exec_tryExtract_latched

/-- Settles O22: neither class is a bad header, so the search stands still in either mode. -/
theorem needMoreChangesNothing : Obligations.NeedMoreChangesNothing := by
  rintro s hv (h | ⟨hg, hlo, hhi, hlen⟩)
  · exact exec_tryExtract_short hv h
  · exact exec_tryExtract_incomplete hv hg hlo hhi hlen

/-- Settles O23: under `TERMINATE` nothing is discarded, and the parser tests `h1` before `h2`. -/
theorem badHeaderUnderTerminate : Obligations.BadHeaderUnderTerminate :=
  fun _ hv ht h8 => ⟨exec_tryExtract_badH1 hv ht h8, exec_tryExtract_badH2 hv ht h8⟩

/-- Settles O24: a bad header is one round of the search; where the header is not bad the command is one pass, which discards
nothing and raises `BadHeader` on a bad header alone. -/
theorem searchDiscardsOneByteAndStartsAgain : Obligations.SearchDiscardsOneByteAndStartsAgain := by
  refine fun s hv hs => ⟨exec_tryExtract_scan hv hs, fun h => ?_⟩
  have hb : (headerParse s.cfg s.buf).isBad = false := h.elim headerParse_isBad_of_short GoodHeader.isBad_eq
  obtain ⟨hcount, hseen⟩ := s.extract_discards
  exact ⟨_, exec_tryExtract_of_not_bad hv hb, hcount, hseen, State.extract_responses_ne_badHeader hb 0,
    State.extract_responses_ne_badHeader hb 1⟩

/-- Settles O25: the parser tests the declared length before it asks for the frame's bytes. -/
theorem lengthOutOfBoundsIsRaisedAtOnce : Obligations.LengthOutOfBoundsIsRaisedAtOnce :=
  fun _ hv hg => ⟨exec_tryExtract_tooLong hv hg, exec_tryExtract_tooShort hv hg⟩

end Sys2Proof.Machine
end

section
/-! PROOFS. PARSE and steps 5 to 7 of TRY_EXTRACT (43_decoder.md rules R178 to R185): the parse of a data section by its layout,
and what the decoder does with a frame once its function code is known. -/

namespace Sys2Proof.Machine

/-! ### PARSE -/

section
variable {ctrl : Word32} {data : List Byte}

theorem be16_drop (B : List Byte) (n i : Nat) : be16 (B.drop n) i = be16 B (n + i) := by
  simp [be16, byteAt, List.getD_eq_getElem?_getD, Nat.add_assoc]

theorem parseRead_valuesOnly (hv : valuesOnly ctrl = true) (heven : data.length % 2 = 0) : parseRead ctrl data =
    some ⟨none, BitVec.ofNat 16 (data.length / 2), (List.range (data.length / 2)).map fun k => be16 data (2 * k)⟩ := by
  rw [parseRead, if_pos hv, if_neg (by omega), words16_eq (data.length / 2) data (by omega)]

theorem parseRead_baseCountValues (hv : valuesOnly ctrl = false) (h4 : 4 ≤ data.length) (heven : data.length % 2 = 0) :
    parseRead ctrl data = some ⟨some (be16 data 0), be16 data 2,
      (List.range ((data.length - 4) / 2)).map fun k => be16 data (4 + 2 * k)⟩ := by
  have hregs := words16_eq ((data.length - 4) / 2) (data.drop 4) (by rw [List.length_drop]; omega)
  simp only [be16_drop] at hregs
  rw [parseRead, if_neg (by simp [hv]), if_neg (by omega), hregs]

theorem parseWrite_four (h : data.length = 4) : parseWrite data = some ⟨some (be16 data 0), be16 data 2, []⟩ :=
  if_neg (not_not.2 h)

theorem parseData_of_read {func : FuncCode} (h : func ≠ .writeSingle) : parseData ctrl func data = parseRead ctrl data := by
  cases func with
  | readHolding => rfl
  | readInput => rfl
  | writeSingle => exact absurd rfl h

theorem funcByte_eq_six_iff (func : FuncCode) : funcByte func = 0x06 ↔ func = .writeSingle := by cases func <;> decide

theorem layoutOk_read_iff {func : FuncCode} (h : func ≠ .writeSingle) {D : Nat} : LayoutOk ctrl (funcByte func) D ↔
    if valuesOnly ctrl then D % 2 = 0 else 4 ≤ D ∧ D % 2 = 0 := by
  rw [LayoutOk, if_neg (mt (funcByte_eq_six_iff func).1 h)]

/-- PARSE fails exactly where the layout of the function code is not met. -/
theorem parseData_eq_none_iff (func : FuncCode) :
    parseData ctrl func data = none ↔ ¬LayoutOk ctrl (funcByte func) data.length := by
  by_cases hw : func = .writeSingle
  · subst hw
    simp [parseData, parseWrite, LayoutOk, funcByte]
  · rw [parseData_of_read hw, layoutOk_read_iff hw, parseRead]
    split_ifs <;> simp <;> omega

end

/-! ### Steps 5 to 7 -/

section
variable {s : State} {func : FuncCode} {fr : RxFrame} {crc : Half} (hcrc : crc = crc16 s.cfg (coverage s.ctrl func fr))
include hcrc

theorem State.decodeFrame_mismatch (hne : crc ≠ fr.crc) (hp : flagPolicy s.ctrl = false) :
    s.decodeFrame func fr = withError s 4 0 := by
  subst hcrc
  exact if_pos ⟨hne, hp⟩

/-- With the CRC step passed, PARSE decides. -/
theorem State.decodeFrame_of_crc_passed (h : crc = fr.crc ∨ flagPolicy s.ctrl = true) : s.decodeFrame func fr =
    match parseData s.ctrl func fr.data with
    | none => withError s 6 1
    | some p => withFrame s (23 + fr.data.length) (decodedFrame func fr p crc) := by
  subst hcrc
  refine (if_neg ?_).trans rfl
  rintro ⟨hne, hp⟩
  exact h.elim hne (by simp [hp])

theorem State.decodeFrame_malformed (h : crc = fr.crc ∨ flagPolicy s.ctrl = true)
    (hl : ¬LayoutOk s.ctrl (funcByte func) fr.data.length) : s.decodeFrame func fr = withError s 6 1 := by
  rw [State.decodeFrame_of_crc_passed hcrc h, (parseData_eq_none_iff func).2 hl]

theorem State.decodeFrame_parsed (h : crc = fr.crc ∨ flagPolicy s.ctrl = true) {p : Parsed}
    (hp : parseData s.ctrl func fr.data = some p) :
    s.decodeFrame func fr = withFrame s (23 + fr.data.length) (decodedFrame func fr p crc) := by
  rw [State.decodeFrame_of_crc_passed hcrc h, hp]

end

end Sys2Proof.Machine
end

section
/-! PROOFS. TRY_EXTRACT on a candidate frame (43_decoder.md rules R176 to R185): the address and the function code, the covered
bytes and the record read at their offsets in the frame, and the whole command in its order (rule R170). -/

namespace Sys2Proof.Machine

/-! ### A frame's bytes and its fields -/

section
variable {F : List Byte} (order : ByteOrder)

theorem rxFields_data_length : (rxFields order F).data.length = F.length - 23 := by
  simp only [rxFields, slice_length]
  omega

/-- The covered bytes of the fields are those at their offsets in the frame, in either scope (40_crc16.md rule R105). -/
theorem coverage_rxFields (ctrl : Word32) {func : FuncCode} (hlen : 23 ≤ F.length) (haddr : byteAt F 19 = 0x32)
    (hfunc : byteAt F 20 = funcByte func) : coverage ctrl func (rxFields order F) = coveredBytes ctrl F := by
  have hinner : slice F 20 (F.length - 2) = funcDataCoverage func (rxFields order F) := by
    rw [slice_split F 20 21 _ (by omega) (by omega), slice_one F 20 (by omega), hfunc]
    rfl
  have hfull : slice F 8 (F.length - 2) = fullInnerCoverage func (rxFields order F) := by
    rw [slice_split F 8 18 _ (by omega) (by omega), slice_split F 18 19 _ (by omega) (by omega),
      slice_split F 19 20 _ (by omega) (by omega), slice_one F 18 (by omega), slice_one F 19 (by omega), haddr, hinner]
    simp [fullInnerCoverage, funcDataCoverage, rxFields]
  rw [coveredBytes, coverage, hinner, hfull]

theorem be16_rxFields_data {k : Nat} (h : k + 2 ≤ (rxFields order F).data.length) :
    be16 (rxFields order F).data k = be16 F (21 + k) := by
  rw [rxFields_data_length] at h
  exact be16_slice F 21 (F.length - 2) k (by omega)

/-- The register values of a data section, read in the frame. -/
theorem map_be16_rxFields_data (start n : Nat) (h : start + 2 * n ≤ (rxFields order F).data.length) :
    ((List.range n).map fun k => be16 (rxFields order F).data (start + 2 * k)) =
      (List.range n).map fun k => be16 F (21 + start + 2 * k) := by
  refine List.map_congr_left fun k hk => ?_
  rw [List.mem_range] at hk
  rw [be16_rxFields_data order (by omega), ← Nat.add_assoc]

/-- PARSE of a frame's data section gives the operands of its record. -/
theorem parseData_rxFields (cfg : Config) {ctrl : Word32} {func : FuncCode} (hfunc : byteAt F 20 = funcByte func)
    (hl : LayoutOk ctrl (funcByte func) (F.length - 23)) : parseData ctrl func (rxFields order F).data =
      some ⟨(frameRecord cfg ctrl F).base, (frameRecord cfg ctrl F).arg, (frameRecord cfg ctrl F).regs⟩ := by
  have hlen := rxFields_data_length order (F := F)
  rw [← hlen] at hl
  by_cases hw : func = .writeSingle
  · subst hw
    have h4 : (rxFields order F).data.length = 4 := hl
    rw [parseData, parseWrite_four h4, be16_rxFields_data order (by omega), be16_rxFields_data order (by omega)]
    simp [frameRecord, hfunc, funcByte]
  have h6 : byteAt F 20 ≠ 0x06 := by rwa [hfunc, ne_eq, funcByte_eq_six_iff]
  rw [layoutOk_read_iff hw] at hl
  rw [parseData_of_read hw]
  cases hv : valuesOnly ctrl with
  | true =>
    have heven : (rxFields order F).data.length % 2 = 0 := by simpa [hv] using hl
    have hregs := map_be16_rxFields_data order (F := F) 0 ((rxFields order F).data.length / 2) (by omega)
    simp only [Nat.zero_add, Nat.add_zero] at hregs
    rw [parseRead_valuesOnly hv heven, hregs, hlen]
    simp only [frameRecord, h6, hv, ne_eq, not_false_eq_true, and_self, if_true, if_false]
  | false =>
    obtain ⟨h4, heven⟩ : 4 ≤ (rxFields order F).data.length ∧ (rxFields order F).data.length % 2 = 0 := by
      simpa [hv] using hl
    rw [parseRead_baseCountValues hv h4 heven, map_be16_rxFields_data order 4 _ (by omega),
      be16_rxFields_data order (by omega), be16_rxFields_data order (by omega), hlen]
    simp only [frameRecord, h6, hv, Bool.false_eq_true, and_false, if_false, Nat.sub_sub]

end

/-! ### The candidate frame -/

section
variable {s : State} {F : List Byte}

theorem Candidate.length_ge (h : Candidate s F) : 23 ≤ F.length := h.length_eq ▸ h.total_ge

theorem Candidate.exec_wrongAddr (h : Candidate s F) (haddr : byteAt F 19 ≠ 0x32) :
    exec .tryExtract s = .next (withError s 3 1) := by
  rw [h.exec_eq, State.judge, protocol_slaveAddr, if_pos haddr]
  rfl

theorem Candidate.exec_unknownFunc (h : Candidate s F) (haddr : byteAt F 19 = 0x32) (hk : ¬KnownFunc (byteAt F 20)) :
    exec .tryExtract s = .next (withError s 3 0) := by
  have hnone : funcOfByte (byteAt F 20) = none := by
    simpa only [knownFunc_iff, ← Option.isSome_iff_exists, Option.not_isSome_iff_eq_none] using hk
  rw [h.exec_eq, State.judge, protocol_slaveAddr, if_neg (not_not.2 haddr), hnone]
  rfl

theorem Candidate.exec_decodes (h : Candidate s F) (haddr : byteAt F 19 = 0x32) {func : FuncCode}
    (hfunc : byteAt F 20 = funcByte func) :
    exec .tryExtract s = .next (s.decodeFrame func (rxFields s.cfg.crcWireOrder F)) := by
  rw [h.exec_eq, State.judge, protocol_slaveAddr, if_neg (not_not.2 haddr), (funcOfByte_eq_some _ _).2 hfunc]

theorem Candidate.frameCrc_eq (h : Candidate s F) (haddr : byteAt F 19 = 0x32) {func : FuncCode}
    (hfunc : byteAt F 20 = funcByte func) :
    frameCrc s.cfg s.ctrl F = crc16 s.cfg (coverage s.ctrl func (rxFields s.cfg.crcWireOrder F)) := by
  rw [coverage_rxFields _ _ h.length_ge haddr hfunc, frameCrc]

theorem KnownFunc.exists_funcByte {b : Byte} (h : KnownFunc b) : ∃ func, b = funcByte func := by
  simpa only [funcOfByte_eq_some] using (knownFunc_iff b).1 h

theorem Candidate.exec_mismatch (h : Candidate s F) (haddr : byteAt F 19 = 0x32) (hk : KnownFunc (byteAt F 20))
    (hne : frameCrc s.cfg s.ctrl F ≠ frameCrcField s.cfg F) (hp : flagPolicy s.ctrl = false) :
    exec .tryExtract s = .next (withError s 4 0) := by
  obtain ⟨func, hfunc⟩ := hk.exists_funcByte
  rw [h.exec_decodes haddr hfunc, State.decodeFrame_mismatch (h.frameCrc_eq haddr hfunc) hne hp]

theorem Candidate.exec_badLayout (h : Candidate s F) (haddr : byteAt F 19 = 0x32) (hk : KnownFunc (byteAt F 20))
    (hcrc : frameCrc s.cfg s.ctrl F = frameCrcField s.cfg F ∨ flagPolicy s.ctrl = true)
    (hl : ¬LayoutOk s.ctrl (byteAt F 20) (F.length - 23)) : exec .tryExtract s = .next (withError s 6 1) := by
  obtain ⟨func, hfunc⟩ := hk.exists_funcByte
  rw [hfunc, ← rxFields_data_length s.cfg.crcWireOrder] at hl
  rw [h.exec_decodes haddr hfunc, State.decodeFrame_malformed (h.frameCrc_eq haddr hfunc) hcrc hl]

theorem Candidate.exec_frame (h : Candidate s F) (haddr : byteAt F 19 = 0x32) (hk : KnownFunc (byteAt F 20))
    (hcrc : frameCrc s.cfg s.ctrl F = frameCrcField s.cfg F ∨ flagPolicy s.ctrl = true)
    (hl : LayoutOk s.ctrl (byteAt F 20) (F.length - 23)) :
    exec .tryExtract s = .next (withFrame s F.length (frameRecord s.cfg s.ctrl F)) := by
  obtain ⟨func, hfunc⟩ := hk.exists_funcByte
  have hlen := h.length_ge
  have hparse := parseData_rxFields s.cfg.crcWireOrder s.cfg hfunc (hfunc ▸ hl)
  rw [h.exec_decodes haddr hfunc, State.decodeFrame_parsed (h.frameCrc_eq haddr hfunc) hcrc hparse, rxFields_data_length,
    show 23 + (F.length - 23) = F.length by omega, decodedFrame, ← hfunc]
  rfl

end

/-- Settles O26: the address is tested before the function code. -/
theorem addressThenFunctionAreChecked : Obligations.AddressThenFunctionAreChecked :=
  fun _ _ h => ⟨h.exec_wrongAddr, h.exec_unknownFunc⟩

/-- Settles O27: the covered bytes the statement writes out are `coveredBytes`, so its CRC is `frameCrc`. -/
theorem strictPolicyRaisesChecksumMismatch : Obligations.StrictPolicyRaisesChecksumMismatch :=
  fun _ _ h haddr hk hp hne => h.exec_mismatch haddr hk hne hp

/-- Settles O28: under `FLAG` the CRC step is passed whatever the CRC, so the frame is emitted, with `crc_ok = 0`. -/
theorem flagPolicyEmitsTheMismatchedFrame : Obligations.FlagPolicyEmitsTheMismatchedFrame := by
  intro s F h haddr hk hp hne hl
  have hok : (frameRecord s.cfg s.ctrl F).crcOk = false := beq_false_of_ne hne
  exact ⟨_, h.exec_frame haddr hk (.inr hp) hl, rfl, hok, rfl, by simp [withFrame, hok], h.unlatched, rfl⟩

/-- Settles O29: PARSE comes after the CRC step, and is not reached when that fails. -/
theorem badLayoutIsRaisedAfterTheCrc : Obligations.BadLayoutIsRaisedAfterTheCrc :=
  fun _ _ h haddr hk hl => ⟨fun hcrc => h.exec_badLayout haddr hk hcrc hl, h.exec_mismatch haddr hk⟩

/-- Settles O30: the next state is `withFrame` with the record at the frame's offsets. -/
theorem emissionFillsTheRecordAndPopsTheFrame : Obligations.EmissionFillsTheRecordAndPopsTheFrame :=
  fun _ _ h haddr hk hcrc hl => ⟨h.length_ge, h.exec_frame haddr hk hcrc hl⟩

/-- Settles O35: one `refine` per condition of the table, which closes the branch where it holds by what the command does
there. -/
theorem firstConditionOfTheTableIsReported : Obligations.FirstConditionOfTheTableIsReported := by
  intro s
  refine ite_prop_iff_and.2 ⟨exec_tryExtract_latched, fun hv => ?_⟩
  rw [Bool.not_eq_true] at hv
  refine ite_prop_iff_and.2 ⟨exec_tryExtract_short hv, fun h8 => ?_⟩
  rw [Nat.not_lt] at h8
  rw [← State.discardBytes_eq]
  refine ite_prop_iff_and.2 ⟨fun h1 => ite_prop_iff_and.2
    ⟨fun hscan => exec_tryExtract_scan hv hscan h8 fun ⟨_, hg1, _⟩ => h1 hg1,
      fun hscan => exec_tryExtract_badH1 hv (Bool.eq_false_of_not_eq_true hscan) h8 h1⟩, fun h1 => ?_⟩
  rw [not_not] at h1
  refine ite_prop_iff_and.2 ⟨fun h2 => ite_prop_iff_and.2
    ⟨fun hscan => exec_tryExtract_scan hv hscan h8 fun ⟨_, _, hg2⟩ => h2 hg2,
      fun hscan => exec_tryExtract_badH2 hv (Bool.eq_false_of_not_eq_true hscan) h8 h1 h2⟩, fun h2 => ?_⟩
  have hg : GoodHeader s.buf := ⟨h8, h1, not_not.1 h2⟩
  refine ite_prop_iff_and.2 ⟨exec_tryExtract_tooLong hv hg, fun hhi => ?_⟩
  refine ite_prop_iff_and.2 ⟨exec_tryExtract_tooShort hv hg, fun hlo => ?_⟩
  rw [Nat.not_lt] at hhi hlo
  refine ite_prop_iff_and.2 ⟨exec_tryExtract_incomplete hv hg hlo hhi, fun hbuf F hF => ?_⟩
  have h : Candidate s F := ⟨hv, hg, hlo, hhi, Nat.not_lt.1 hbuf, hF⟩
  refine ite_prop_iff_and.2 ⟨h.exec_wrongAddr, fun haddr => ?_⟩
  rw [not_not] at haddr
  refine ite_prop_iff_and.2 ⟨h.exec_unknownFunc haddr, fun hk => ?_⟩
  rw [not_not] at hk
  refine ite_prop_iff_and.2 ⟨fun ⟨hne, hp⟩ => h.exec_mismatch haddr hk hne hp, fun hcrc => ?_⟩
  have hpass : frameCrc s.cfg s.ctrl F = frameCrcField s.cfg F ∨ flagPolicy s.ctrl = true := by
    rwa [not_and_or, not_not, Bool.not_eq_false] at hcrc
  exact ⟨h.exec_badLayout haddr hk hpass, h.exec_frame haddr hk hpass⟩

end Sys2Proof.Machine
end

section
/-! PROOFS. The three received frames (43_decoder.md rules R180 to R182): with the frame at the head of the buffer each is steps 5
to 7 on its operands. -/

namespace Sys2Proof.Machine

section
variable {s : State} {fr : RxFrame}

theorem State.frameAtHead_of {func : FuncCode} (hv : s.errValid = false) (hwf : fr.wf s.cfg = true)
    (hhead : receivedFrame s.cfg func fr <+: s.buf) : s.frameAtHead func fr = true := by
  simp [State.frameAtHead, hv, hwf, hhead]

theorem exec_received_of_atHead {func : FuncCode} (h : s.frameAtHead func fr = true) :
    exec (receivedInstr func fr) s = .next (s.decodeFrame func fr) := by
  cases func <;> exact if_pos h

/-- Rules R180 and R181, for both read function codes. -/
theorem readFrameResult {func : FuncCode} (hread : func ≠ .writeSingle) (hat : s.frameAtHead func fr = true) {crc : Half}
    (hcrc : crc = crc16 s.cfg (coverage s.ctrl func fr)) :
    (crc ≠ fr.crc → flagPolicy s.ctrl = false → exec (receivedInstr func fr) s = .next (withError s 4 0)) ∧
    (crc = fr.crc ∨ flagPolicy s.ctrl = true →
      (valuesOnly s.ctrl = false → 4 ≤ fr.data.length → fr.data.length % 2 = 0 →
        exec (receivedInstr func fr) s = .next (withFrame s (23 + fr.data.length)
          (decodedFrame func fr ⟨some (be16 fr.data 0), be16 fr.data 2,
            (List.range ((fr.data.length - 4) / 2)).map fun k => be16 fr.data (4 + 2 * k)⟩ crc))) ∧
      (valuesOnly s.ctrl = true → fr.data.length % 2 = 0 →
        exec (receivedInstr func fr) s = .next (withFrame s (23 + fr.data.length)
          (decodedFrame func fr ⟨none, BitVec.ofNat 16 (fr.data.length / 2),
            (List.range (fr.data.length / 2)).map fun k => be16 fr.data (2 * k)⟩ crc))) ∧
      (fr.data.length % 2 = 1 ∨ (valuesOnly s.ctrl = false ∧ fr.data.length < 4) →
        exec (receivedInstr func fr) s = .next (withError s 6 1))) := by
  rw [exec_received_of_atHead hat]
  refine ⟨fun hne hp => ?_, fun hpass => ⟨fun hv h4 heven => ?_, fun hv heven => ?_, fun hbad => ?_⟩⟩
  · rw [State.decodeFrame_mismatch hcrc hne hp]
  · rw [State.decodeFrame_parsed hcrc hpass ((parseData_of_read hread).trans (parseRead_baseCountValues hv h4 heven))]
  · rw [State.decodeFrame_parsed hcrc hpass ((parseData_of_read hread).trans (parseRead_valuesOnly hv heven))]
  · have hl : ¬LayoutOk s.ctrl (funcByte func) fr.data.length := by
      rw [layoutOk_read_iff hread]
      cases hv : valuesOnly s.ctrl <;> simp [hv] at hbad ⊢ <;> omega
    rw [State.decodeFrame_malformed hcrc hpass hl]

end

/-- Settles O31: the function code is `0x03`. -/
theorem readHoldingFrameResult : Obligations.ReadHoldingFrameResult :=
  fun _ _ hv hwf hhead _ hcrc => readFrameResult (func := .readHolding) (by decide) (State.frameAtHead_of hv hwf hhead) hcrc

/-- Settles O32: the function code is `0x04`. -/
theorem readInputFrameResult : Obligations.ReadInputFrameResult :=
  fun _ _ hv hwf hhead _ hcrc => readFrameResult (func := .readInput) (by decide) (State.frameAtHead_of hv hwf hhead) hcrc

/-- Settles O33: the layout of the write is its length alone, whatever `RX_READ_LAYOUT`. -/
theorem writeSingleFrameResult : Obligations.WriteSingleFrameResult := by
  intro s fr hv hwf hhead crc hcrc
  have hcrc : crc = crc16 s.cfg (coverage s.ctrl .writeSingle fr) := hcrc
  have hexec : exec (.rxWriteSingle fr) s = .next (s.decodeFrame .writeSingle fr) :=
    exec_received_of_atHead (State.frameAtHead_of hv hwf hhead)
  rw [hexec]
  refine ⟨fun hne hp => ?_, fun hpass => ⟨fun h4 => ?_, fun hne4 => ?_⟩⟩
  · rw [State.decodeFrame_mismatch hcrc hne hp]
  · rw [State.decodeFrame_parsed hcrc hpass (parseWrite_four h4), h4]
    rfl
  · rw [State.decodeFrame_malformed hcrc hpass hne4]

end Sys2Proof.Machine
end

section
/-! PROOFS. The CSR sub-block (44_control.md rules R210, R211, R213): what REG_READ answers for a register and for a reserved index,
what REG_WRITE stores, and the bits of `STATUS` and of a written `CTRL` that the rules name. -/

namespace Sys2Proof.Machine

section
variable (s : State) {idx : Byte}

/-! ### The answers of REG_READ and REG_WRITE -/

/-- Rule R210: a register's value, `ILLEGAL` for an index that has none, and the state kept either way. -/
theorem exec_regRead (idx : Byte) : exec (.regRead idx) s = .next (answered s ((regValue s idx).elim .illegal .value)) := by
  change execRegRead idx s = _
  unfold execRegRead
  cases regValue s idx <;> rfl

theorem exec_regWrite_ctrl (value : Word32) : exec (.regWrite 0x00 value) s =
    .next { s with ctrl := ctrlWritten value, responses := .ack :: s.responses } := rfl

theorem exec_regWrite_not_ctrl (h : idx ≠ 0x00) (value : Word32) :
    exec (.regWrite idx value) s = .next (answered s .illegal) :=
  congrArg Host.Outcome.next (if_neg h)

/-! ### Bits of `STATUS` and of a written `CTRL` -/

theorem bit32_shiftLeft (b : Bool) (n : Nat) : bit32 b <<< n = (((if b then 1 else 0) <<< n : Nat) : Word32) := by
  cases b <;> exact BitVec.eq_of_toNat_eq (by simp [bit32])

/-- Rule R210's expression with its two sticky bits shifted as numbers, as the statement of REG_READ reads it. -/
theorem statusWord_eq_natBits : statusWord s =
    (BitVec.ofNat 32 s.buf.length <<< 16 ||| (if s.resyncSeen then 1 else 0) <<< 13
      ||| (if s.crcFlagged then 1 else 0) <<< 12 ||| s.errDetail.setWidth 32 <<< 8 ||| s.errCode.setWidth 32 <<< 4
      ||| (if s.errValid then 1 else 0)) := by
  rw [statusWord, bit32_shiftLeft, bit32_shiftLeft, bit32]

/-- `ERR_CODE` and `ERR_DETAIL` are neighbours in `STATUS` (10_state.md rule R25). -/
theorem statusWord_codes : (statusWord s).extractLsb' 4 8 = s.errDetail ++ s.errCode := by
  simp only [statusWord_eq_append, BitVec.extractLsb'_append_eq_ite]
  simp

theorem ctrlWritten_eq_append (v : Word32) : ctrlWritten v = 0#28 ++ v.extractLsb' 0 4 := by
  apply BitVec.eq_of_getLsbD_eq
  intro i hi
  simp only [ctrlWritten, BitVec.getLsbD_and, BitVec.getLsbD_append, BitVec.getLsbD_extractLsb']
  interval_cases i <;> simp

end

/-- Settles O3: `State.endSession` keeps `CTRL` and clears the other elements. -/
theorem sessionResetClearsAllButCtrl : Obligations.SessionResetClearsAllButCtrl := exec_sessionReset

/-- Settles O37: each index of the register map answers its register's value; the invariant keeps the codes of an unlatched error
at 0, and `STATUS` shows them side by side. -/
theorem regReadAnswersAndChangesNothing : Obligations.RegReadAnswersAndChangesNothing := by
  refine ⟨fun s idx => ?_, fun s hinv hv => ⟨statusWord s, exec_regRead_status s, ?_⟩⟩
  · rw [exec_regRead, ← statusWord_eq_natBits, regValue]
    split_ifs <;> rfl
  · obtain ⟨hcode, hdetail⟩ := hinv.codes_zero_of_unlatched hv
    rw [statusWord_codes, hcode, hdetail]
    rfl

/-- Settles O39: the write stores `ctrlWritten`, which is the low four bits under 28 zeros, and REG_READ answers the field `ctrl`. -/
theorem regWriteStoresCtrlOnly : Obligations.RegWriteStoresCtrlOnly := by
  refine ⟨fun s idx value => ?_, fun s value => ⟨_, exec_regWrite_ctrl s value, ?_⟩⟩
  · split_ifs with h0
    · rw [h0]
      exact exec_regWrite_ctrl s value
    · exact exec_regWrite_not_ctrl s h0 value
  · rw [← ctrlWritten_eq_append]
    exact exec_regRead _ 0x00

end Sys2Proof.Machine
end

section
/-! PROOFS. Entering an error (60_exceptions.md rule R236): what TRY_EXTRACT does to the state when it latches an error. -/

namespace Sys2Proof.Machine

variable {s t : State}

theorem State.raise_eq_withError (e : FrameError) : s.raise e = withError s (errorCode e) (errorDetail e) := rfl

/-- Of all that an unlatched TRY_EXTRACT can do, raising an error behind its discards is what leaves the latch set. -/
theorem raises_behind_discards_of_latches (hv : s.errValid = false) (h : exec .tryExtract s = .next t)
    (hlatched : t.errValid = true) :
    ∃ n, (scanMode s.ctrl = false → n = 0) ∧ IsRaise (s.discardBytes n) t := by
  obtain ⟨hv', -⟩ | ⟨-, n, -, hterminate, -, -, hmore | hraise | ⟨total, df, -, -, -, -, -, hframe⟩⟩ :=
    exec_tryExtract_cases h
  · simp [hv] at hv'
  · simp [hmore, hv] at hlatched
  · exact ⟨n, hterminate, hraise⟩
  · simp [hframe, hv] at hlatched

/-- Settles O34: the command raises its error on the state its discards left, and an entry writes the latch and the response. -/
theorem errorEntryChangesOnlyTheLatch : Obligations.ErrorEntryChangesOnlyTheLatch := by
  intro s t hv h hlatched
  obtain ⟨n, hterminate, e, rfl⟩ := raises_behind_discards_of_latches hv h hlatched
  exact ⟨n, errorCode e, errorDetail e, by rw [State.raise_eq_withError, State.discardBytes_eq], hterminate⟩

end Sys2Proof.Machine
end

section
/-! PROOFS. The command word (30_encoding.md rules R80 to R83): which words spell a command, by their fields, and that the rows of
the opcode table and the decoder agree on them. -/

namespace Sys2Proof

open Machine

/-! ### Words that spell a command -/

/-- The fields of `w` are those of a command: a known `OP`, and every reserved bit of rule R82 is 0. -/
def SpellsCommand (w : Command) : Prop :=
  w.extractLsb' 40 4 = 0 ∧
    (w.extractLsb' 44 4 = 0x1 ∨
    (w.extractLsb' 44 4 = 0x2 ∧ w.extractLsb' 8 32 = 0) ∨
    (w.extractLsb' 44 4 = 0x3 ∧ w.extractLsb' 0 40 = 0) ∨
    (w.extractLsb' 44 4 = 0x4 ∧ w.extractLsb' 0 40 = 0) ∨
    (w.extractLsb' 44 4 = 0x5 ∧ w.extractLsb' 0 32 = 0) ∨
    w.extractLsb' 44 4 = 0x6)

section
variable {w : Command}

/-- A part of a word, cut in two. -/
theorem extract_split (w : Command) (start hi lo : Nat) :
    w.extractLsb' start (hi + lo) = w.extractLsb' (start + lo) hi ++ w.extractLsb' start lo :=
  (BitVec.extractLsb'_append_extractLsb'_eq_extractLsb' rfl).symm

/-! ### The decoder, by the fields of a word -/

theorem decodeCommand_eq_encode (hr : w.extractLsb' 40 4 = 0) (hop : w.extractLsb' 44 4 = 0x1) :
    decodeCommand w = .encode (w.extractLsb' 32 8) (w.extractLsb' 16 16) (w.extractLsb' 0 16) := by
  simp [decodeCommand, hr, hop]

theorem decodeCommand_eq_feed (hr : w.extractLsb' 40 4 = 0) (hop : w.extractLsb' 44 4 = 0x2)
    (hz : w.extractLsb' 8 32 = 0) : decodeCommand w = .feed (w.extractLsb' 0 8) := by
  simp [decodeCommand, hr, hop, hz]

theorem decodeCommand_eq_tryExtract (hr : w.extractLsb' 40 4 = 0) (hop : w.extractLsb' 44 4 = 0x3)
    (hz : w.extractLsb' 0 40 = 0) : decodeCommand w = .tryExtract := by
  simp [decodeCommand, hr, hop, hz]

theorem decodeCommand_eq_sessionReset (hr : w.extractLsb' 40 4 = 0) (hop : w.extractLsb' 44 4 = 0x4)
    (hz : w.extractLsb' 0 40 = 0) : decodeCommand w = .sessionReset := by
  simp [decodeCommand, hr, hop, hz]

theorem decodeCommand_eq_regRead (hr : w.extractLsb' 40 4 = 0) (hop : w.extractLsb' 44 4 = 0x5)
    (hz : w.extractLsb' 0 32 = 0) : decodeCommand w = .regRead (w.extractLsb' 32 8) := by
  simp [decodeCommand, hr, hop, hz]

theorem decodeCommand_eq_regWrite (hr : w.extractLsb' 40 4 = 0) (hop : w.extractLsb' 44 4 = 0x6) :
    decodeCommand w = .regWrite (w.extractLsb' 32 8) (w.extractLsb' 0 32) := by
  simp [decodeCommand, hr, hop]

/-- The decoder's ILLEGAL row is the words that spell no command (rule R83). -/
theorem decodeCommand_eq_illegal (h : ¬SpellsCommand w) : decodeCommand w = .illegal w := by
  unfold decodeCommand
  simp only
  split_ifs <;> simp_all [SpellsCommand]

/-! ### The rows of the opcode table -/

/-- Under a mask that takes `OP` and the reserved bits and, below them, only bits that are 0, `OP` alone is left. -/
theorem and_row (hr : w.extractLsb' 40 4 = 0) {op : Nibble} (hop : w.extractLsb' 44 4 = op) {low : BitVec 40}
    (hlow : w.extractLsb' 0 40 &&& low = 0) : w &&& (0xFF#8 ++ low) = op ++ (0 : BitVec 44) := by
  have hw : w = (op ++ (0 : Nibble)) ++ w.extractLsb' 0 40 := by
    rw [← hr, ← hop, ← extract_split w 40 4 4, ← extract_split w 0 8 40, BitVec.extractLsb'_eq_self]
  have hmask : 0xFF#8 = BitVec.allOnes 4 ++ BitVec.allOnes 4 := rfl
  conv_lhs => rw [hw, hmask, BitVec.and_append, BitVec.and_append, hlow, BitVec.and_allOnes, BitVec.and_allOnes]
  rw [BitVec.append_assoc]
  rfl

theorem exists_row_of_spellsCommand (h : SpellsCommand w) : ∃ row ∈ commandRows, w &&& row.2 = row.1 := by
  obtain ⟨hr, hop | ⟨hop, hz⟩ | ⟨hop, hz⟩ | ⟨hop, hz⟩ | ⟨hop, hz⟩ | hop⟩ := h
  · exact ⟨(0x100000000000, 0xFF0000000000), by decide, and_row hr hop (low := 0) (by simp)⟩
  · refine ⟨(0x200000000000, 0xFFFFFFFFFF00), by decide, and_row hr hop (low := 0xFFFFFFFF#32 ++ 0#8) ?_⟩
    rw [extract_split w 0 32 8, hz, BitVec.and_append]
    simp
  · exact ⟨(0x300000000000, 0xFFFFFFFFFFFF), by decide, and_row hr hop (low := 0xFFFFFFFFFF) (by simp [hz])⟩
  · exact ⟨(0x400000000000, 0xFFFFFFFFFFFF), by decide, and_row hr hop (low := 0xFFFFFFFFFF) (by simp [hz])⟩
  · refine ⟨(0x500000000000, 0xFF00FFFFFFFF), by decide, and_row hr hop (low := 0#8 ++ 0xFFFFFFFF#32) ?_⟩
    rw [extract_split w 0 8 32, hz, BitVec.and_append]
    simp
  · exact ⟨(0x600000000000, 0xFF0000000000), by decide, and_row hr hop (low := 0) (by simp)⟩

/-- A word that matches a row has the row's `OP` and no reserved bit. -/
theorem spellsCommand_of_row {row : Command × Command} (hrow : row ∈ commandRows) (h : w &&& row.2 = row.1) :
    SpellsCommand w := by
  simp only [commandRows, List.mem_cons, List.not_mem_nil, or_false] at hrow
  obtain rfl | rfl | rfl | rfl | rfl | rfl := hrow
  · exact ⟨extract_of_row w _ _ 40 4 (by rfl) h, .inl (extract_of_row w _ _ 44 4 (by rfl) h)⟩
  · exact ⟨extract_of_row w _ _ 40 4 (by rfl) h, .inr (.inl ⟨extract_of_row w _ _ 44 4 (by rfl) h,
      extract_of_row w _ _ 8 32 (by rfl) h⟩)⟩
  · exact ⟨extract_of_row w _ _ 40 4 (by rfl) h, .inr (.inr (.inl ⟨extract_of_row w _ _ 44 4 (by rfl) h,
      extract_of_row w _ _ 0 40 (by rfl) h⟩))⟩
  · exact ⟨extract_of_row w _ _ 40 4 (by rfl) h, .inr (.inr (.inr (.inl ⟨extract_of_row w _ _ 44 4 (by rfl) h,
      extract_of_row w _ _ 0 40 (by rfl) h⟩)))⟩
  · exact ⟨extract_of_row w _ _ 40 4 (by rfl) h, .inr (.inr (.inr (.inr (.inl ⟨extract_of_row w _ _ 44 4 (by rfl) h,
      extract_of_row w _ _ 0 32 (by rfl) h⟩))))⟩
  · exact ⟨extract_of_row w _ _ 40 4 (by rfl) h, .inr (.inr (.inr (.inr (.inr (extract_of_row w _ _ 44 4 (by rfl) h)))))⟩

theorem illFormedWord_iff : illFormedWord w = true ↔ ¬SpellsCommand w := by
  have hall : illFormedWord w = true ↔ ∀ row ∈ commandRows, w &&& row.2 ≠ row.1 := by simp [illFormedWord]
  rw [hall]
  refine ⟨fun h hs => ?_, fun hs row hrow h => hs (spellsCommand_of_row hrow h)⟩
  obtain ⟨row, hrow, heq⟩ := exists_row_of_spellsCommand hs
  exact h row hrow heq

/-! ### A word put together again from the command it spells -/

theorem encodeWord_eq {op : Nibble} {hi : Byte} {lo : Word32} (hr : w.extractLsb' 40 4 = 0) (hop : w.extractLsb' 44 4 = op)
    (hhi : w.extractLsb' 32 8 = hi) (hlo : w.extractLsb' 0 32 = lo) : encodeWord op hi lo = w := by
  rw [← hop, ← hhi, ← hlo, encodeWord_of_fields w hr]

/-- A part of a part that is 0 is 0. -/
theorem extract_eq_zero {start len : Nat} (h : w.extractLsb' start len = 0) (skip n : Nat) (hn : skip + n ≤ len) :
    w.extractLsb' (start + skip) n = 0 := by
  have hpart : w.extractLsb' (start + skip) n = (w.extractLsb' start len).extractLsb' skip n := by
    ext i hi
    simp [show skip + i < len by omega, Nat.add_assoc]
  rw [hpart, h]
  simp

theorem setWidth_byte (b : Byte) : b.setWidth 32 = 0#24 ++ b := BitVec.setWidth_eq_append (by omega)

theorem setWidth_shiftLeft_or (hi lo : Half) : hi.setWidth 32 <<< 16 ||| lo.setWidth 32 = hi ++ lo := by
  rw [← BitVec.setWidth_append_eq_shiftLeft_setWidth_or, BitVec.setWidth_eq]

theorem halves_of_fields : halves (w.extractLsb' 16 16) (w.extractLsb' 0 16) = w.extractLsb' 0 32 := by
  rw [halves, setWidth_shiftLeft_or, extract_split w 0 16 16]

theorem encode_decodeCommand (cfg : Config) (h : SpellsCommand w) :
    (decodeCommand w).wf cfg = true ∧ encode cfg (decodeCommand w) = .command w := by
  obtain ⟨hr, hop | ⟨hop, hz⟩ | ⟨hop, hz⟩ | ⟨hop, hz⟩ | ⟨hop, hz⟩ | hop⟩ := h
  · rw [decodeCommand_eq_encode hr hop]
    exact ⟨rfl, congrArg _ (encodeWord_eq hr hop rfl halves_of_fields.symm)⟩
  · have hlo : w.extractLsb' 0 32 = (w.extractLsb' 0 8).setWidth 32 := by
      rw [extract_split w 0 24 8, extract_eq_zero hz 0 24 (by omega), setWidth_byte]
      rfl
    rw [decodeCommand_eq_feed hr hop hz]
    exact ⟨rfl, congrArg _ (encodeWord_eq hr hop (extract_eq_zero hz 24 8 (by omega)) hlo)⟩
  · rw [decodeCommand_eq_tryExtract hr hop hz]
    exact ⟨rfl, congrArg _ (encodeWord_eq hr hop (extract_eq_zero hz 32 8 (by omega)) (extract_eq_zero hz 0 32 (by omega)))⟩
  · rw [decodeCommand_eq_sessionReset hr hop hz]
    exact ⟨rfl, congrArg _ (encodeWord_eq hr hop (extract_eq_zero hz 32 8 (by omega)) (extract_eq_zero hz 0 32 (by omega)))⟩
  · rw [decodeCommand_eq_regRead hr hop hz]
    exact ⟨rfl, congrArg _ (encodeWord_eq hr hop rfl hz)⟩
  · rw [decodeCommand_eq_regWrite hr hop]
    exact ⟨rfl, congrArg _ (encodeWord_eq hr hop rfl rfl)⟩

end

/-! ### A command decoded from its word -/

section
variable (hi : Byte) (base arg : Half) (value : Word32)

theorem decodeCommand_encode : decodeCommand (encodeWord 0x1 hi (halves base arg)) = .encode hi base arg := by
  rw [decodeCommand_eq_encode (encodeWord_reserved ..) (encodeWord_op ..), encodeWord_hi, encodeWord_lo _ _ _ _ _ (by omega),
    encodeWord_lo _ _ _ _ _ (by omega), halves_hi, halves_lo]

theorem decodeCommand_feed : decodeCommand (encodeWord 0x2 0 (hi.setWidth 32)) = .feed hi := by
  have hz : (encodeWord 0x2 0 (hi.setWidth 32)).extractLsb' 8 32 = 0 := by
    rw [extract_split _ 8 8 24, encodeWord_hi, encodeWord_lo _ _ _ _ _ (by omega), setWidth_byte,
      BitVec.extractLsb'_append_eq_left]
    rfl
  rw [decodeCommand_eq_feed (encodeWord_reserved ..) (encodeWord_op ..) hz, encodeWord_lo _ _ _ _ _ (by omega),
    setWidth_byte, BitVec.extractLsb'_append_eq_right]

theorem decodeCommand_regRead : decodeCommand (encodeWord 0x5 hi 0) = .regRead hi := by
  rw [decodeCommand_eq_regRead (encodeWord_reserved ..) (encodeWord_op ..) (encodeWord_lo _ _ _ _ _ (by omega)),
    encodeWord_hi]

theorem decodeCommand_regWrite : decodeCommand (encodeWord 0x6 hi value) = .regWrite hi value := by
  rw [decodeCommand_eq_regWrite (encodeWord_reserved ..) (encodeWord_op ..), encodeWord_hi,
    encodeWord_lo _ _ _ _ _ (by omega), BitVec.extractLsb'_eq_self]

end

/-- Settles O12: a word that spells a command is put together again from the command's operands; any other is an ILLEGAL word
that matches no row. -/
theorem encodeOfDecodeIsTheWord : Obligations.EncodeOfDecodeIsTheWord := by
  intro cfg w
  by_cases h : SpellsCommand w
  · exact encode_decodeCommand cfg h
  · rw [decodeCommand_eq_illegal h]
    exact ⟨illFormedWord_iff.2 h, rfl⟩

/-- Settles O13: each of the seven forms contradicts a field that a command's word must have. -/
theorem illFormedWordsAnswerIllegal : Obligations.IllFormedWordsAnswerIllegal := by
  refine ⟨fun s w hbad => ?_, fun _ _ => rfl⟩
  have h : ¬SpellsCommand w := by
    rintro ⟨hr, hop⟩
    obtain hop | ⟨hop, hz⟩ | ⟨hop, hz⟩ | ⟨hop, hz⟩ | ⟨hop, hz⟩ | hop := hop <;> simp_all
  rw [decodeCommand_eq_illegal h]
  rfl

end Sys2Proof
end

section
/-! PROOFS. Decoding what was encoded (30_encoding.md Parts A and B), and the words and frames of the spec: the three requests and
the three received frames, each for its function code, and the commands. -/

namespace Sys2Proof

theorem RxFrame.wf_iff {cfg : Config} {fr : RxFrame} :
    fr.wf cfg = true ↔ fr.serial.length = 10 ∧ 23 + fr.data.length ≤ cfg.maxFrameLen := by
  rw [RxFrame.wf, Bool.and_eq_true, beq_iff_eq, decide_eq_true_iff, minFrameLen_eq]

end Sys2Proof

namespace Sys2Proof.Machine

section
variable (cfg : Config) (func : FuncCode)

theorem encode_requestInstr (base arg : Half) :
    encode cfg (requestInstr func base arg) = .request (requestFrame cfg (funcByte func) base arg) := by
  cases func <;> rfl

theorem encode_receivedInstr (fr : RxFrame) : encode cfg (receivedInstr func fr) = .received (receivedFrame cfg func fr) := by
  cases func <;> rfl

theorem wf_receivedInstr (fr : RxFrame) : (receivedInstr func fr).wf cfg = fr.wf cfg := by cases func <;> rfl

/-- The operands of a request are read from bytes 20 to 24, and every other byte is as they fix it (rule R72). -/
theorem decodeRequest_requestFrame (base arg : Half) :
    decodeRequest cfg (requestFrame cfg (funcByte func) base arg) = .ok (requestInstr func base arg) := by
  simp [decodeRequest, requestFrame_length, requestFrame_func, funcOfByte_funcByte, requestFrame_base, requestFrame_arg]

/-- A well-formed frame passes the decoder's steps 1 to 4, and its fields are read as they were written (rule R71). -/
theorem decodeReceived_receivedFrame {fr : RxFrame} (h : fr.wf cfg = true) :
    decodeReceived cfg (receivedFrame cfg func fr) = .ok (receivedInstr func fr) := by
  obtain ⟨hs, -⟩ := RxFrame.wf_iff.1 h
  have hparse := headerParse_receivedFrame cfg func fr [] h
  rw [List.append_nil] at hparse
  simp [decodeReceived, hparse, receivedFrame_length _ _ _ hs, receivedFrame_addr _ _ _ hs, receivedFrame_func _ _ _ hs,
    funcOfByte_funcByte, rxFields_receivedFrame _ _ _ hs]

theorem decode_encode_requestInstr (base arg : Half) :
    decode cfg (encode cfg (requestInstr func base arg)) = .ok (requestInstr func base arg) := by
  rw [encode_requestInstr]
  exact decodeRequest_requestFrame cfg func base arg

theorem decode_encode_receivedInstr {fr : RxFrame} (h : fr.wf cfg = true) :
    decode cfg (encode cfg (receivedInstr func fr)) = .ok (receivedInstr func fr) := by
  rw [encode_receivedInstr]
  exact decodeReceived_receivedFrame cfg func h

end

/-- Settles O11: one case per row of the opcode table: a command by the fields of its word, an ILLEGAL word because it spells no
command, a request and a received frame by the offsets of their fields. -/
theorem decodeOfEncodeIsTheInstruction : Obligations.DecodeOfEncodeIsTheInstruction := by
  intro cfg i h
  cases i with
  | encode func base arg => exact congrArg Except.ok (decodeCommand_encode func base arg)
  | feed byte => exact congrArg Except.ok (decodeCommand_feed byte)
  | tryExtract => rfl
  | sessionReset => rfl
  | regRead idx => exact congrArg Except.ok (decodeCommand_regRead idx)
  | regWrite idx value => exact congrArg Except.ok (decodeCommand_regWrite idx value)
  | illegal word => exact congrArg Except.ok (decodeCommand_eq_illegal (illFormedWord_iff.1 h))
  | txReadHolding base count => exact decode_encode_requestInstr cfg .readHolding base count
  | txReadInput base count => exact decode_encode_requestInstr cfg .readInput base count
  | txWriteSingle reg value => exact decode_encode_requestInstr cfg .writeSingle reg value
  | rxReadHolding fr => exact decode_encode_receivedInstr cfg .readHolding h
  | rxReadInput fr => exact decode_encode_receivedInstr cfg .readInput h
  | rxWriteSingle fr => exact decode_encode_receivedInstr cfg .writeSingle h

/-- Settles O10: the words and the frames are fixed, so the decoder is run on each. -/
theorem specWordsDecode : Obligations.SpecWordsDecode :=
  ⟨by decide, by decide, by decide, by decide, by decide, by decide, by decide, by decide +kernel,
    by decide, by decide, by decide⟩

end Sys2Proof.Machine
end

section
/-! PROOFS. One step of the machine (00_scope.md rule R14, 70_reset_and_hazards.md rule R260, 60_exceptions.md rule R245): the
three things that can stand at the head of the port, the requests as ENCODE, and a received frame as TRY_EXTRACT. -/

namespace Sys2Proof.Machine

section
variable {s : State} {rest : List Input}

theorem step_idle (h : s.port = []) : step s = .next s := by simp [step, h]

theorem step_command {w : Command} (h : s.port = .command w :: rest) :
    step s = exec (decodeCommand w) { s with port := rest } := by
  simp [step, h]

theorem step_powerOnReset (h : s.port = .powerOnReset :: rest) : step s = .next { s.powerOn with port := rest } := by
  simp [step, h]

/-- What stands at the head of the port decides the step. -/
theorem step_cases (s : State) : step s = .next s ∨ (∃ w rest, step s = exec (decodeCommand w) { s with port := rest }) ∨
    ∃ rest, step s = .next { s.powerOn with port := rest } := by
  rcases hport : s.port with _ | ⟨w | _, rest⟩
  · exact .inl (step_idle hport)
  · exact .inr (.inl ⟨w, rest, step_command hport⟩)
  · exact .inr (.inr ⟨rest, step_powerOnReset hport⟩)

/-! ### Requests -/

theorem commandFor_requestInstr (func : FuncCode) (base arg : Half) :
    commandFor (requestInstr func base arg) = encodeWord 0x1 (funcByte func) (halves base arg) := by
  cases func <;> rfl

theorem exec_requestInstr (func : FuncCode) (base arg : Half) (s : State) :
    exec (requestInstr func base arg) s = exec (.encode (funcByte func) base arg) s := by
  cases func <;> rfl

/-! ### Received frames -/

variable {func : FuncCode} {fr : RxFrame}

/-- With the frame at the head of the buffer TRY_EXTRACT finds it whole and is steps 5 to 7 on its operands. -/
theorem exec_tryExtract_of_atHead (hv : s.errValid = false) (hwf : fr.wf s.cfg = true)
    (hhead : receivedFrame s.cfg func fr <+: s.buf) : exec .tryExtract s = .next (s.decodeFrame func fr) := by
  obtain ⟨R, hR⟩ := hhead
  obtain ⟨hs, -⟩ := RxFrame.wf_iff.1 hwf
  have hparse : headerParse s.cfg s.buf = .complete (23 + fr.data.length) := hR ▸ headerParse_receivedFrame s.cfg func fr R hwf
  have hF : slice s.buf 0 (23 + fr.data.length) = receivedFrame s.cfg func fr := by
    rw [← hR, ← receivedFrame_length s.cfg func fr hs]
    simp [slice]
  rw [exec_tryExtract_of_not_bad hv (by rw [hparse]; rfl), State.extract, hparse]
  simp [hF, State.judge, receivedFrame_addr _ _ _ hs, receivedFrame_func _ _ _ hs, funcOfByte_funcByte,
    rxFields_receivedFrame _ _ _ hs]

/-- What a received frame does off the head of the buffer is TRY_EXTRACT by its definition (log entry 7), and at the head it is
what TRY_EXTRACT does there. -/
theorem exec_receivedInstr (func : FuncCode) (fr : RxFrame) (s : State) :
    exec (receivedInstr func fr) s = exec .tryExtract s := by
  cases hat : s.frameAtHead func fr with
  | true =>
    obtain ⟨⟨hv, hwf⟩, hhead⟩ : (s.errValid = false ∧ fr.wf s.cfg = true) ∧ receivedFrame s.cfg func fr <+: s.buf := by
      simpa [State.frameAtHead] using hat
    rw [exec_received_of_atHead hat, exec_tryExtract_of_atHead hv hwf hhead]
  | false =>
    have hoff : ¬s.frameAtHead func fr = true := by simp [hat]
    cases func <;> exact if_neg hoff

end

/-- Settles O8: off the head of the buffer by definition, at the head because TRY_EXTRACT finds the frame whole. -/
theorem receivedFramesRunAsTryExtract : Obligations.ReceivedFramesRunAsTryExtract := by
  refine ⟨fun s func fr => exec_receivedInstr func fr s, fun s func fr rest hwf hv hhead hport => ?_⟩
  have hstep : step s = exec .tryExtract { s with port := rest } := step_command hport
  exact ⟨by rw [hstep, exec_receivedInstr], by rw [hstep]; exact exec_tryExtract_of_atHead hv hwf hhead⟩

/-- Settles O2: the step on a power-on reset is `State.powerOn` with the input taken. -/
theorem powerOnResetSetsEveryElement : Obligations.PowerOnResetSetsEveryElement := fun _ _ => step_powerOnReset

/-- Settles O5: with nothing issued the step takes its first branch. -/
theorem idleBlockHoldsItsState : Obligations.IdleBlockHoldsItsState := fun _ => step_idle

/-- Settles O6: on command words the decoder never fails. -/
theorem stepRunsTheDecodedCommand : Obligations.StepRunsTheDecodedCommand := by
  rintro s w rest i hport ⟨⟩
  exact step_command hport

/-- Settles O7: the word of a request is ENCODE's word with the request's function code. -/
theorem requestsRunAsEncode : Obligations.RequestsRunAsEncode := by
  intro s func base arg rest hport
  have hstep : step s = exec (.encode (funcByte func) base arg) { s with port := rest } := by
    rw [step_command hport, commandFor_requestInstr, decodeCommand_encode]
  exact ⟨by rw [hstep, exec_requestInstr], hstep⟩

end Sys2Proof.Machine
end

section
/-! PROOFS. What any instruction can do to the state, said once: every instruction completes, and the next state is one of eight
shapes. The claims about all instructions are read off these shapes in the sections behind this one. -/

namespace Sys2Proof.Machine

/-- `i` runs TRY_EXTRACT: the command itself, or a received frame (log entry 7). -/
def Extracts (i : Instr) : Prop := i = .tryExtract ∨ ∃ func fr, i = receivedInstr func fr

/-- The sentinel search from `s` discards `n` bytes (43_decoder.md rules R173, R174, R187). -/
structure Discards (s : State) (n : Nat) : Prop where
  /-- At least 7 bytes stay. -/
  le : n ≤ s.buf.length - 7
  /-- None under `TERMINATE`. -/
  terminate : scanMode s.ctrl = false → n = 0
  /-- Under `SCAN`, the positions whose header is bad. -/
  scan : scanMode s.ctrl = true → n = junkLength s.cfg s.buf

/-- `t` is what the instruction can make of `s`, each shape with the condition it is reached under. -/
inductive Effect (s : State) : Instr → State → Prop where
  /-- SESSION_RESET. -/
  | reset : Effect s .sessionReset (s.endSession.respond .ack)
  /-- FEED with room in the buffer. -/
  | push (b : Byte) (room : s.buf.length ≠ s.cfg.bufCap) : Effect s (.feed b) ((s.bufPush b).respond .ack)
  /-- REG_WRITE of `CTRL`. -/
  | writeCtrl (v : Word32) :
      Effect s (.regWrite 0x00 v) { s with ctrl := ctrlWritten v, responses := .ack :: s.responses }
  /-- An answer of a command that is neither SESSION_RESET nor TRY_EXTRACT, and nothing else. -/
  | answer {i : Instr} (r : Response) (reset : i ≠ .sessionReset) (extracts : ¬Extracts i) (frame : ∀ df, r ≠ .frame df) :
      Effect s i (s.respond r)
  /-- TRY_EXTRACT returns the latched error again. -/
  | repeatError {i : Instr} (extracts : Extracts i) (latched : s.errValid = true) :
      Effect s i (s.respond (.error s.errCode s.errDetail))
  /-- TRY_EXTRACT asks for more behind its discards. -/
  | needMore {i : Instr} {n : Nat} (extracts : Extracts i) (unlatched : s.errValid = false) (discards : Discards s n) :
      Effect s i ((s.discardBytes n).respond .needMore)
  /-- TRY_EXTRACT raises an error behind its discards. -/
  | raise {i : Instr} {n : Nat} (e : FrameError) (extracts : Extracts i) (unlatched : s.errValid = false)
      (discards : Discards s n) : Effect s i ((s.discardBytes n).raise e)
  /-- TRY_EXTRACT emits a frame, all buffered, behind its discards. -/
  | emit {i : Instr} {n total : Nat} {df : DecodedFrame} (extracts : Extracts i) (unlatched : s.errValid = false)
      (discards : Discards s n) (total_eq : total = 23 + df.data.length) (buffered : n + total ≤ s.buf.length)
      (crcOk : df.crcOk = (df.crcCalc == df.crcRx)) : Effect s i ((s.discardBytes n).emit total df)

section
variable {i : Instr} {s t : State}

/-! ### Every instruction completes -/

theorem exec_completes (i : Instr) (s : State) : ∃ t, exec i s = .next t := by
  cases i with
  | rxReadHolding fr => exact ⟨_, exec_receivedInstr .readHolding fr s⟩
  | rxReadInput fr => exact ⟨_, exec_receivedInstr .readInput fr s⟩
  | rxWriteSingle fr => exact ⟨_, exec_receivedInstr .writeSingle fr s⟩
  | _ => exact ⟨_, rfl⟩

/-! ### The shapes of the next state -/

theorem effect_of_tryExtract (hi : Extracts i) (h : exec .tryExtract s = .next t) : Effect s i t := by
  obtain ⟨hv, rfl⟩ | ⟨hv, n, hle, hterm, hscan, -, rfl | ⟨e, rfl⟩ | ⟨total, df, hlo, hhi, hdata, hok, -, rfl⟩⟩ :=
    exec_tryExtract_cases h
  · exact .repeatError hi hv
  · exact .needMore hi hv ⟨hle, hterm, hscan⟩
  · exact .raise e hi hv ⟨hle, hterm, hscan⟩
  · exact .emit hi hv ⟨hle, hterm, hscan⟩ (by omega) (by omega) hok

theorem effect_of_received (func : FuncCode) (fr : RxFrame) (h : exec (receivedInstr func fr) s = .next t) :
    Effect s (receivedInstr func fr) t :=
  effect_of_tryExtract (.inr ⟨func, fr, rfl⟩) (exec_receivedInstr func fr s ▸ h)

theorem extracts_iff : Extracts i ↔ i = .tryExtract ∨ (∃ fr, i = .rxReadHolding fr) ∨ (∃ fr, i = .rxReadInput fr) ∨
    ∃ fr, i = .rxWriteSingle fr := by
  refine or_congr_right ⟨?_, ?_⟩
  · rintro ⟨_ | _ | _, fr, rfl⟩
    · exact .inl ⟨fr, rfl⟩
    · exact .inr (.inl ⟨fr, rfl⟩)
    · exact .inr (.inr ⟨fr, rfl⟩)
  · rintro (⟨fr, rfl⟩ | ⟨fr, rfl⟩ | ⟨fr, rfl⟩)
    · exact ⟨.readHolding, fr, rfl⟩
    · exact ⟨.readInput, fr, rfl⟩
    · exact ⟨.writeSingle, fr, rfl⟩

/-- A request answered `OK` is the frame of its function code; any other answer is `INVALID_REQUEST`. -/
theorem encodeRequest_cases (cfg : Config) (func : Byte) (base arg : Half) :
    (∃ code, func = funcByte code ∧ encodeRequest cfg func base arg = .ok (requestFrame cfg func base arg)) ∨
    ∃ d, encodeRequest cfg func base arg = .invalidRequest d := by
  unfold encodeRequest
  split
  · exact .inr ⟨_, rfl⟩
  · next code hcode =>
    split
    · exact .inr ⟨_, rfl⟩
    · exact .inl ⟨code, (funcOfByte_eq_some _ _).1 hcode, rfl⟩

theorem encodeRequest_ne_frame (cfg : Config) (func : Byte) (base arg : Half) (df : DecodedFrame) :
    encodeRequest cfg func base arg ≠ .frame df := by
  obtain ⟨_, _, h⟩ | ⟨_, h⟩ := encodeRequest_cases cfg func base arg <;> simp [h]

theorem effect_of_encode {func : Byte} {base arg : Half} (hi : ¬Extracts i) (hr : i ≠ .sessionReset)
    (h : exec (.encode func base arg) s = .next t) : Effect s i t := by
  cases h
  exact .answer _ hr hi (encodeRequest_ne_frame _ func base arg)

/-- Everything an instruction can do. -/
theorem exec_effect (h : exec i s = .next t) : Effect s i t := by
  cases i with
  | encode func base arg => exact effect_of_encode (by simp [extracts_iff]) (by simp) h
  | txReadHolding base count => exact effect_of_encode (by simp [extracts_iff]) (by simp) h
  | txReadInput base count => exact effect_of_encode (by simp [extracts_iff]) (by simp) h
  | txWriteSingle reg value => exact effect_of_encode (by simp [extracts_iff]) (by simp) h
  | feed b =>
    by_cases hfull : s.buf.length = s.cfg.bufCap
    · cases (exec_feed_full b hfull).symm.trans h
      exact .answer .full (by simp) (by simp [extracts_iff]) (by simp)
    · cases (exec_feed_room b hfull).symm.trans h
      exact .push b hfull
  | tryExtract => exact effect_of_tryExtract (.inl rfl) h
  | sessionReset =>
    cases h
    exact .reset
  | regRead idx =>
    cases (exec_regRead s idx).symm.trans h
    exact .answer _ (by simp) (by simp [extracts_iff]) (by cases regValue s idx <;> simp)
  | regWrite idx value =>
    by_cases h0 : idx = 0x00
    · subst h0
      cases h
      exact .writeCtrl value
    · cases (exec_regWrite_not_ctrl s h0 value).symm.trans h
      exact .answer .illegal (by simp) (by simp [extracts_iff]) (by simp)
  | illegal word =>
    cases h
    exact .answer .illegal (by simp) (by simp [extracts_iff]) (by simp)
  | rxReadHolding fr => exact effect_of_received .readHolding fr h
  | rxReadInput fr => exact effect_of_received .readInput fr h
  | rxWriteSingle fr => exact effect_of_received .writeSingle fr h

end

/-- Settles O9: a step is an instruction, or answers a next state by definition. -/
theorem everyStepCompletes : Obligations.EveryStepCompletes := by
  refine ⟨fun s => ?_, exec_completes⟩
  obtain hidle | ⟨w, rest, hcommand⟩ | ⟨rest, hreset⟩ := step_cases s
  · exact ⟨_, hidle⟩
  · rw [hcommand]
    exact exec_completes _ _
  · exact ⟨_, hreset⟩

end Sys2Proof.Machine
end

section
/-! PROOFS. The invariant (10_state.md rules R22, R25, R26, R28, R30, R32): each operation of the state keeps it, so each shape of
a next state does, so every step does. -/

namespace Sys2Proof.Machine

section
variable {s : State}

/-- The invariant speaks of no response and of nothing issued. -/
theorem State.Inv.of_same_elements {t : State} (h : s.Inv) (hcfg : t.cfg = s.cfg) (hblock : SameBlock s t) : t.Inv := by
  obtain ⟨hbuf, hctrl, hv, hc, hd, -, hseen, -, hcount⟩ := hblock
  refine ⟨by rw [hbuf, hcfg]; exact h.buf_le, by rw [hctrl]; exact h.ctrl_reserved, ?_,
    by rw [hcount, hseen]; exact h.discard_seen⟩
  rw [State.LatchOk, hv, hc, hd]
  exact h.latch_ok

theorem State.Inv.respond (h : s.Inv) (r : Response) : (s.respond r).Inv :=
  h.of_same_elements rfl (sameBlock_answered s r)

theorem State.Inv.bufPush (h : s.Inv) (b : Byte) (room : s.buf.length ≠ s.cfg.bufCap) : (s.bufPush b).Inv where
  buf_le := by
    have := h.buf_le
    simp only [bufPush_buf, List.length_append, List.length_cons, List.length_nil, bufPush_cfg]
    omega
  ctrl_reserved := h.ctrl_reserved
  latch_ok := h.latch_ok
  discard_seen := h.discard_seen

theorem State.Inv.endSession (h : s.Inv) : s.endSession.Inv where
  buf_le := Nat.zero_le _
  ctrl_reserved := h.ctrl_reserved
  latch_ok := ⟨rfl, rfl⟩
  discard_seen := fun hne => absurd rfl hne

theorem State.Inv.discardBytes (h : s.Inv) (n : Nat) : (s.discardBytes n).Inv where
  buf_le := by
    have := h.buf_le
    simp only [discardBytes_buf, List.length_drop, discardBytes_cfg]
    omega
  ctrl_reserved := by simpa using h.ctrl_reserved
  latch_ok := by simpa [State.LatchOk] using h.latch_ok
  discard_seen := by
    have := h.discard_seen
    rcases Nat.eq_zero_or_pos n with rfl | hn
    · simpa using this
    · simp [hn]

theorem State.Inv.raise (h : s.Inv) (e : FrameError) : (s.raise e).Inv where
  buf_le := h.buf_le
  ctrl_reserved := h.ctrl_reserved
  latch_ok := ⟨e, rfl, rfl⟩
  discard_seen := h.discard_seen

theorem State.Inv.emit (h : s.Inv) (total : Nat) (df : DecodedFrame) : (s.emit total df).Inv where
  buf_le := by
    have := h.buf_le
    simp only [emit_buf, List.length_drop, emit_cfg]
    omega
  ctrl_reserved := h.ctrl_reserved
  latch_ok := h.latch_ok
  discard_seen := h.discard_seen

theorem ctrlWritten_reserved (v : Word32) : ctrlWritten v &&& 0xFFFFFFF0 = 0 := by
  rw [ctrlWritten, BitVec.and_assoc]
  exact BitVec.and_zero

theorem Effect.keeps_inv {i : Instr} {t : State} (h : Effect s i t) (hs : s.Inv) : t.Inv := by
  cases h with
  | reset => exact hs.endSession.respond .ack
  | push b room => exact (hs.bufPush b room).respond .ack
  | writeCtrl v => exact ⟨hs.buf_le, ctrlWritten_reserved v, hs.latch_ok, hs.discard_seen⟩
  | answer r => exact hs.respond r
  | repeatError => exact hs.respond _
  | needMore => exact (hs.discardBytes _).respond .needMore
  | raise e => exact (hs.discardBytes _).raise e
  | emit => exact (hs.discardBytes _).emit _ _

end

/-- Settles O40: the reset state's buffer is empty, its `CTRL` 0, its latch clear and its discard counter 0. -/
theorem resetMeetsTheInvariant : Obligations.ResetMeetsTheInvariant :=
  ⟨Nat.zero_le _, by decide, ⟨rfl, rfl⟩, fun h => absurd rfl h⟩

/-- Settles O41: the step on a command is an instruction's effect, on a power-on reset the end of the session with `CTRL` 0,
and an idle step changes nothing. -/
theorem everyStepKeepsTheInvariant : Obligations.EveryStepKeepsTheInvariant := by
  intro s t hs h
  obtain hidle | ⟨w, rest, hcommand⟩ | ⟨rest, hreset⟩ := step_cases s
  · cases hidle.symm.trans h
    exact hs
  · rw [hcommand] at h
    exact (exec_effect h).keeps_inv (hs.of_same_elements (t := { s with port := rest }) rfl (by simp [SameBlock]))
  · cases hreset.symm.trans h
    exact ⟨Nat.zero_le _, by simp, ⟨rfl, rfl⟩, fun hne => absurd rfl hne⟩

end Sys2Proof.Machine
end

section
/-! PROOFS. What every instruction keeps and changes, read off the shapes of its next state: the latch (60_exceptions.md rule
R238), the elements by their writers (10_state.md rule R22), the buffer's bytes (43_decoder.md rule R187), the counters and the
sticky bits (10_state.md rules R27 to R30), and the response (30_encoding.md rule R84). -/

namespace Sys2Proof.Machine

section
variable {s t : State} {i : Instr}

/-! ### The latch -/

theorem Effect.keeps_latch (h : Effect s i t) (hv : s.errValid = true) (hi : i ≠ .sessionReset) :
    t.errValid = true ∧ t.errCode = s.errCode ∧ t.errDetail = s.errDetail ∧ s.buf <+: t.buf := by
  cases h with
  | reset => exact absurd rfl hi
  | push b => exact ⟨hv, rfl, rfl, List.prefix_append s.buf [b]⟩
  | writeCtrl | answer | repeatError => exact ⟨hv, rfl, rfl, List.prefix_rfl⟩
  | needMore _ hu | raise _ _ hu | emit _ hu => simp [hv] at hu

theorem runInstrs_cons {is : List Instr} (h : exec i s = .next t) : runInstrs (i :: is) s = runInstrs is t := by
  simp only [runInstrs, h]

/-! ### The counters and the sticky bits -/

/-- `FRAME_COUNT` and the response go together (rule R29). -/
theorem Effect.frameCount_eq (h : Effect s i t) (hi : i ≠ .sessionReset) :
    (∃ df, t.responses = .frame df :: s.responses) ∧ t.frameCount = s.frameCount + 1 ∨
    (∀ df, t.responses ≠ .frame df :: s.responses) ∧ t.frameCount = s.frameCount := by
  cases h with
  | reset => exact absurd rfl hi
  | answer r _ _ hf => exact .inr ⟨by simpa using hf, rfl⟩
  | push | writeCtrl | repeatError | needMore | raise => exact .inr (by simp)
  | emit => exact .inl (by simp)

theorem State.discardBytes_unseen {n : Nat} (h : (s.discardBytes n).resyncSeen = false) : n = 0 := by
  simp only [discardBytes_resyncSeen, Bool.or_eq_false_iff, decide_eq_false_iff_not] at h
  omega

/-- A counted discard is seen (rules R28, R30). -/
theorem Effect.discardCount_eq (h : Effect s i t) (hi : i ≠ .sessionReset) (hseen : t.resyncSeen = false) :
    t.discardCount = s.discardCount := by
  cases h with
  | reset => exact absurd rfl hi
  | push | writeCtrl | answer | repeatError => rfl
  | needMore | raise | emit =>
    obtain rfl := State.discardBytes_unseen hseen
    rfl

/-- `CRC_FLAGGED` becomes set with the emission of a mismatched frame alone (rule R27). -/
theorem Effect.crcFlagged_iff (h : Effect s i t) (hi : i ≠ .sessionReset) :
    t.crcFlagged = true ↔ s.crcFlagged = true ∨ ∃ df, t.responses = .frame df :: s.responses ∧ df.crcCalc ≠ df.crcRx := by
  cases h with
  | reset => exact absurd rfl hi
  | answer r _ _ hf => simp [hf]
  | push | writeCtrl | repeatError | needMore | raise => simp
  | emit _ _ _ _ _ hok => simp [hok]

/-- A discard is made only where the header at the head of the buffer is bad (43_decoder.md rule R174). -/
theorem Discards.badHeader {n : Nat} (h : Discards s n) (hn : n ≠ 0) :
    scanMode s.ctrl = true ∧ 8 ≤ s.buf.length ∧ ¬GoodHeader s.buf := by
  have hscan : scanMode s.ctrl = true := Bool.eq_true_of_not_eq_false fun h0 => hn (h.terminate h0)
  refine ⟨hscan, (headerParse_isBad_iff_not_goodHeader (cfg := s.cfg)).1 (Bool.eq_true_of_not_eq_false fun hgood => hn ?_)⟩
  rw [h.scan hscan, junkLength_of_good _ _ hgood]

/-- `RESYNC_SEEN` stays set, and becomes set only by a search that discards (rule R28). -/
theorem Effect.resyncSeen_cases (h : Effect s i t) (hi : i ≠ .sessionReset) :
    t.resyncSeen = s.resyncSeen ∨
    t.resyncSeen = true ∧ scanMode s.ctrl = true ∧ 8 ≤ s.buf.length ∧ ¬GoodHeader s.buf ∧ s.errValid = false := by
  cases h with
  | reset => exact absurd rfl hi
  | push | writeCtrl | answer | repeatError => exact .inl rfl
  | @needMore _ n _ hv hn | @raise _ n _ _ hv hn | @emit _ n _ _ _ hv hn =>
    by_cases h0 : n = 0
    · subst h0
      exact .inl rfl
    · obtain ⟨hscan, h8, hbad⟩ := hn.badHeader h0
      exact .inr ⟨by simp [Nat.pos_of_ne_zero h0], hscan, h8, hbad, hv⟩

end

/-- Settles O36: no instruction of the run leaves the latch, and each keeps the bytes before it at the head of the buffer. -/
theorem onlySessionResetLeavesALatchedError : Obligations.OnlySessionResetLeavesALatchedError := by
  intro is
  induction is with
  | nil => exact fun s hv _ => ⟨s, rfl, hv, rfl, rfl, List.prefix_rfl⟩
  | cons i is ih =>
    intro s hv hmem
    obtain ⟨hi, hrest⟩ : .sessionReset ≠ i ∧ .sessionReset ∉ is := by simpa using hmem
    obtain ⟨t, ht⟩ := exec_completes i s
    obtain ⟨hv', hcode, hdetail, hbuf⟩ := (exec_effect ht).keeps_latch hv hi.symm
    obtain ⟨u, hu, huv, hucode, hudetail, hubuf⟩ := ih t hv' hrest
    exact ⟨u, (runInstrs_cons ht).trans hu, huv, hucode.trans hcode, hudetail.trans hdetail, hbuf.trans hubuf⟩

/-- Settles O43: one shape at a time, what it changes is what its instruction may write. -/
theorem elementsAreWrittenOnlyByTheirCommands : Obligations.ElementsAreWrittenOnlyByTheirCommands := by
  intro i s t h extracts
  cases exec_effect h with
  | reset | push | writeCtrl | answer | repeatError => simp
  | needMore hx | raise _ hx | emit hx =>
    exact ⟨by simp, by simp, by simp, fun _ => .inr (.inl hx), fun _ => .inl hx⟩

/-- Settles O44: the bytes that leave are the search's discards and the emitted frame's total length. -/
theorem bytesLeaveInThreeWays : Obligations.BytesLeaveInThreeWays := by
  intro i s t h
  cases exec_effect h with
  | reset => exact .inl ⟨rfl, rfl⟩
  | push b => exact .inr (.inr ⟨by simp, by simp, List.prefix_append s.buf [b]⟩)
  | writeCtrl v => exact .inr (.inr ⟨by simp, by simp, List.prefix_rfl⟩)
  | answer r hr hx => exact .inr (.inr ⟨hr, fun htry => hx (.inl htry), List.prefix_rfl⟩)
  | repeatError hx => exact .inr (.inl ⟨hx, 0, 0, by simp⟩)
  | needMore hx _ hn | raise _ hx _ hn =>
    have := hn.le
    exact .inr (.inl ⟨hx, _, 0, hn.le, by simp, by omega, by simp, hn.terminate, .inl (by simp)⟩)
  | emit hx hv hn htotal hbuf =>
    exact .inr (.inl ⟨hx, _, _, hn.le, by simp, hbuf, by simp, hn.terminate, .inr ⟨_, by simp, htotal⟩⟩)

/-- Settles O45: an emission alone adds to `FRAME_COUNT`, and a counted discard is seen. -/
theorem frameCountCountsEmittedFrames : Obligations.FrameCountCountsEmittedFrames := by
  intro i s t h
  refine ⟨?_, fun hi => ?_⟩
  · rintro rfl
    cases h
    exact ⟨rfl, rfl⟩
  · have hdiscard := (exec_effect h).discardCount_eq hi
    obtain ⟨⟨df, hframe⟩, hcount⟩ | ⟨hno, hcount⟩ := (exec_effect h).frameCount_eq hi
    · exact ⟨fun _ => by rw [hcount, BitVec.toNat_add]; rfl, fun hno => absurd hframe (hno df), hdiscard⟩
    · exact ⟨fun ⟨df, hframe⟩ => absurd hframe (hno df), fun _ => hcount, hdiscard⟩

/-- Settles O46: the emission of a mismatched frame sets the one bit, a discard the other, and nothing but SESSION_RESET clears
either. -/
theorem stickyBitsAreSetAndStay : Obligations.StickyBitsAreSetAndStay := by
  intro i s t h
  refine ⟨?_, fun hi => ⟨(exec_effect h).crcFlagged_iff hi, ?_⟩⟩
  · rintro rfl
    cases h
    exact ⟨rfl, rfl⟩
  · obtain hsame | ⟨hset, hbad⟩ := (exec_effect h).resyncSeen_cases hi
    · rw [hsame]
      exact ⟨id, fun hclear hset => absurd hset (by simp [hclear])⟩
    · exact ⟨fun _ => hset, fun _ _ => hbad⟩

/-! ### The response of each command -/

theorem encodeRequest_row (cfg : Config) (func : Byte) (base arg : Half) :
    (∃ F, encodeRequest cfg func base arg = .ok F ∧ F.length = 27) ∨ ∃ d, encodeRequest cfg func base arg = .invalidRequest d :=
  (encodeRequest_cases cfg func base arg).imp_left fun ⟨_, _, hok⟩ => ⟨_, hok, requestFrame_length cfg func base arg⟩

theorem tryExtract_row (s : State) : ∃ t r, exec .tryExtract s = .next t ∧ t.responses = r :: s.responses ∧
    (r = .needMore ∨ (∃ df, r = .frame df) ∨ ∃ code detail, r = .error code detail) := by
  obtain ⟨t, ht⟩ := exec_completes .tryExtract s
  refine ⟨t, ?_⟩
  cases exec_effect ht with
  | answer _ _ hx => exact absurd (.inl rfl) hx
  | repeatError => exact ⟨_, ht, rfl, .inr (.inr ⟨_, _, rfl⟩)⟩
  | needMore => exact ⟨_, ht, by simp, .inl rfl⟩
  | raise e => exact ⟨_, ht, by simp, .inr (.inr ⟨errorCode e, errorDetail e, rfl⟩)⟩
  | @emit _ _ _ df => exact ⟨_, ht, by simp, .inr (.inl ⟨df, rfl⟩)⟩

/-- Settles O42: one case per row of the opcode table. -/
theorem oneResponsePerCommandOfItsRow : Obligations.OneResponsePerCommandOfItsRow := by
  intro i s
  cases i with
  | encode func base arg => exact ⟨_, _, rfl, rfl, encodeRequest_row s.cfg func base arg⟩
  | txReadHolding base count => exact ⟨_, _, rfl, rfl, encodeRequest_row s.cfg 0x03 base count⟩
  | txReadInput base count => exact ⟨_, _, rfl, rfl, encodeRequest_row s.cfg 0x04 base count⟩
  | txWriteSingle reg value => exact ⟨_, _, rfl, rfl, encodeRequest_row s.cfg 0x06 reg value⟩
  | feed b =>
    by_cases hfull : s.buf.length = s.cfg.bufCap
    · exact ⟨_, _, exec_feed_full b hfull, rfl, .inr rfl⟩
    · exact ⟨_, _, exec_feed_room b hfull, rfl, .inl rfl⟩
  | tryExtract => exact tryExtract_row s
  | sessionReset => exact ⟨_, _, rfl, rfl, rfl⟩
  | regRead idx =>
    refine ⟨_, _, exec_regRead s idx, rfl, ?_⟩
    cases regValue s idx with
    | none => exact .inr rfl
    | some v => exact .inl ⟨v, rfl⟩
  | regWrite idx value =>
    by_cases h0 : idx = 0x00
    · subst h0
      exact ⟨_, _, exec_regWrite_ctrl s value, rfl, .inl rfl⟩
    · exact ⟨_, _, exec_regWrite_not_ctrl s h0 value, rfl, .inr rfl⟩
  | illegal word => exact ⟨_, _, rfl, rfl, rfl⟩
  | rxReadHolding fr => exact exec_receivedInstr .readHolding fr s ▸ tryExtract_row s
  | rxReadInput fr => exact exec_receivedInstr .readInput fr s ▸ tryExtract_row s
  | rxWriteSingle fr => exact exec_receivedInstr .writeSingle fr s ▸ tryExtract_row s

/-- Settles O15: an `OK` carries `requestFrame`, whose bytes are written out in rule R72. -/
theorem encodedFramesAre27Bytes : Obligations.EncodedFramesAre27Bytes := by
  intro s t func base arg F h hF
  cases h
  obtain ⟨code, -, hok⟩ | ⟨d, hd⟩ := encodeRequest_cases s.cfg func base arg
  · obtain rfl : requestFrame s.cfg func base arg = F := by simpa [hok] using hF
    have hlen := requestFrame_length s.cfg func base arg
    refine ⟨hlen, ?_, ?_⟩
    · rw [requestFrame_bytes]; simp [slice]
    · rw [hlen, requestFrame_bytes]; simp [declaredTotal, be16, byteAt]
  · simp [hd] at hF

end Sys2Proof.Machine
end

section
/-! PROOFS. The CRC (40_crc16.md rules R101, R102, R107, R108): with bit 0 of the polynomial set a shift of the register loses
nothing, so the change of one byte is never lost; and the default parameters are the shift-right form read backwards. -/

namespace Sys2Proof.Machine

/-- The byte that enters the register stands in its high half. -/
theorem setWidth_shiftLeft_byte (d : Byte) : d.setWidth 16 <<< 8 = d ++ 0#8 := by
  have h := BitVec.setWidth_append_eq_shiftLeft_setWidth_or (w'' := 16) (b := d) (b' := 0#8)
  simpa using h.symm

/-! ### Nothing is lost when bit 0 of the polynomial is set -/

/-- A bit that falls out is still seen in bit 0, where the shift leaves room and the polynomial has its 1. -/
theorem crcShift_injective {poly : Half} (h : poly.getLsbD 0 = true) : Function.Injective (crcShift poly) := by
  have hlow : ∀ c, (crcShift poly c).getLsbD 0 = c.msb := by
    intro c
    unfold crcShift
    split <;> simp_all
  intro c d hcd
  have hmsb : c.msb = d.msb := by rw [← hlow c, ← hlow d, hcd]
  have hshift : c <<< 1 = d <<< 1 := by
    unfold crcShift at hcd
    rw [hmsb] at hcd
    split at hcd
    · exact (BitVec.xor_left_inj poly).1 hcd
    · exact hcd
  apply BitVec.eq_of_getLsbD_eq
  intro i hi
  rcases Nat.lt_or_ge i 15 with hlt | hge
  · have hbit := congrArg (fun v => v.getLsbD (i + 1)) hshift
    simpa only [BitVec.getLsbD_shiftLeft, show i + 1 < 16 by omega, decide_true, Bool.true_and, show ¬i + 1 < 1 by omega,
      decide_false, Bool.not_false, Nat.add_sub_cancel] using hbit
  · obtain rfl : i = 15 := by omega
    simpa only [BitVec.msb_eq_getLsbD_last] using hmsb

theorem reverse_injective (w : Nat) : Function.Injective (BitVec.reverse (w := w)) :=
  Function.LeftInverse.injective fun _ => BitVec.reverse_reverse_eq

/-- Two sequences have the same CRC when their registers are equal: the last steps lose nothing. -/
theorem crc16_eq_iff (cfg : Config) (A B : List Byte) :
    crc16 cfg A = crc16 cfg B ↔ A.foldl (crcByte cfg) cfg.crcInit = B.foldl (crcByte cfg) cfg.crcInit := by
  unfold crc16
  cases cfg.crcRefOut
  · simp [BitVec.xor_left_inj]
  · simp [BitVec.xor_left_inj, (reverse_injective 16).eq_iff]

section
variable {cfg : Config} (h : cfg.crcPoly.getLsbD 0 = true)
include h

theorem crcByte_left_injective (d : Byte) : Function.Injective (crcByte cfg · d) := by
  intro c c' heq
  exact (BitVec.xor_left_inj _).1 ((crcShift_injective h).iterate 8 heq)

theorem crcByte_right_injective (c : Half) : Function.Injective (crcByte cfg c) := by
  intro d d' heq
  have hin := (BitVec.xor_right_inj c).1 ((crcShift_injective h).iterate 8 heq)
  rw [setWidth_shiftLeft_byte, setWidth_shiftLeft_byte, BitVec.append_left_inj] at hin
  cases hr : cfg.crcRefIn
  · simpa [hr] using hin
  · exact reverse_injective 8 (by simpa [hr] using hin)

/-- Different registers stay different whatever bytes follow. -/
theorem foldl_crcByte_injective (B : List Byte) : Function.Injective fun c => B.foldl (crcByte cfg) c := by
  induction B with
  | nil => exact Function.injective_id
  | cons d B ih => exact ih.comp (crcByte_left_injective h d)

/-- Two sequences that differ in one byte have different CRCs (rule R107). -/
theorem crc16_set_ne {B : List Byte} {k : Nat} {v : Byte} (hk : k < B.length) (hv : v ≠ byteAt B k) :
    crc16 cfg (B.set k v) ≠ crc16 cfg B := by
  have hB : B = B.take k ++ byteAt B k :: B.drop (k + 1) := by
    simp [byteAt, List.getD_eq_getElem?_getD, hk]
  have hset : B.set k v = B.take k ++ v :: B.drop (k + 1) := by rw [List.set_eq_take_append_cons_drop, if_pos hk]
  intro heq
  rw [crc16_eq_iff, hset] at heq
  conv at heq => rhs; rw [hB]
  rw [List.foldl_append, List.foldl_append] at heq
  exact hv (crcByte_right_injective h _ (foldl_crcByte_injective h _ heq))

end

/-! ### The shift-right form -/

theorem reverse_xor (a b : Half) : (a ^^^ b).reverse = a.reverse ^^^ b.reverse := by
  ext i hi
  simp [BitVec.getElem_reverse]

theorem reverse_shiftLeft_one (c : Half) : (c <<< 1).reverse = c.reverse >>> 1 := by
  apply BitVec.eq_of_getLsbD_eq
  intro i hi
  rw [BitVec.getLsbD_reverse, BitVec.getLsbD_ushiftRight, BitVec.getLsbD_reverse, BitVec.getMsbD_shiftLeft, Nat.add_comm]

/-- `0xA001` is `0x8005` read backwards, and so is each shift. -/
theorem reverse_crcShift (c : Half) : (crcShift 0x8005 c).reverse = crcShiftRight c.reverse := by
  have hbit : c.reverse.getLsbD 0 = c.msb := by rw [BitVec.getLsbD_reverse, BitVec.msb]
  unfold crcShift crcShiftRight
  rw [hbit]
  split
  · rw [reverse_xor, reverse_shiftLeft_one]
    rfl
  · exact reverse_shiftLeft_one c

theorem reverse_byte (d : Byte) : (d.reverse.setWidth 16 <<< 8).reverse = d.setWidth 16 := by
  rw [setWidth_shiftLeft_byte, BitVec.reverse_append, BitVec.reverse_reverse_eq, BitVec.setWidth_eq_append (by omega)]
  rfl

theorem reverse_crcByte (c : Half) (d : Byte) :
    (crcByte Config.default c d).reverse = crcShiftRight^[8] (c.reverse ^^^ d.setWidth 16) := by
  have hiterate := (Function.Semiconj.iterate_right (f := BitVec.reverse) (ga := crcShift 0x8005) reverse_crcShift 8)
    (c ^^^ (d.reverse.setWidth 16 <<< 8))
  rw [reverse_xor, reverse_byte] at hiterate
  exact hiterate

/-- Settles O56: the two runs of the register part at byte `k` and never meet again. -/
theorem crcDetectsEverySingleByteChange : Obligations.CrcDetectsEverySingleByteChange :=
  fun _ _ _ _ h hk hv => crc16_set_ne h hk hv

/-- Settles O57: the registers of the two forms are each other read backwards, after every byte. -/
theorem crcEqualsItsShiftRightForm : Obligations.CrcEqualsItsShiftRightForm := by
  intro B
  have hfold : (B.foldl (crcByte Config.default) 0xFFFF).reverse = crc16Right B :=
    (List.foldl_hom BitVec.reverse (init := 0xFFFF) fun c d => (reverse_crcByte c d).symm).symm
  exact (BitVec.xor_zero).trans hfold

/-- Settles O59: the nine bytes are fixed, so the CRC is computed. -/
theorem crcCheckValue : Obligations.CrcCheckValue := by
  unfold Obligations.CrcCheckValue
  decide +kernel

end Sys2Proof.Machine
end

section
/-! PROOFS. What TRY_EXTRACT does not read (43_decoder.md rule R188, 42_header_splitter.md rules R147, R150): the elements other
than `BUF`, `CTRL` and the latch, and the bytes behind the frame it emits. -/

namespace Sys2Proof.Machine

/-! ### Two states that agree on the inputs -/

/-- From `s` and `s'` the same response leads to `t` and `t'`, which agree on the inputs of TRY_EXTRACT. -/
def SameAnswer (s s' t t' : State) : Prop :=
  ∃ r, t.responses = r :: s.responses ∧ t'.responses = r :: s'.responses ∧ SameInputs t t'

section
variable {s s' : State} (h : SameInputs s s')
include h

theorem SameInputs.respond (r : Response) : SameAnswer s s' (s.respond r) (s'.respond r) := ⟨r, rfl, rfl, h⟩

theorem SameInputs.raise (e : FrameError) : SameAnswer s s' (s.raise e) (s'.raise e) := by
  obtain ⟨hcfg, hbuf, hctrl, -⟩ := h
  exact ⟨_, rfl, rfl, hcfg, hbuf, hctrl, rfl, rfl, rfl⟩

theorem SameInputs.emit (total : Nat) (df : DecodedFrame) : SameAnswer s s' (s.emit total df) (s'.emit total df) := by
  obtain ⟨hcfg, hbuf, hlatch⟩ := h
  exact ⟨_, rfl, rfl, hcfg, congrArg (List.drop total) hbuf, hlatch⟩

theorem SameInputs.decodeFrame (func : FuncCode) (fr : RxFrame) :
    SameAnswer s s' (s.decodeFrame func fr) (s'.decodeFrame func fr) := by
  unfold State.decodeFrame
  rw [h.1, h.2.2.1]
  simp only
  split
  · exact h.raise _
  · split
    · exact h.raise _
    · exact h.emit _ _

theorem SameInputs.judge (F : List Byte) : SameAnswer s s' (s.judge F) (s'.judge F) := by
  unfold State.judge
  rw [h.1]
  split
  · exact h.raise _
  · split
    · exact h.raise _
    · exact h.decodeFrame _ _

theorem SameInputs.extract : SameAnswer s s' s.extract s'.extract := by
  obtain ⟨hcfg, hbuf, -⟩ := id h
  unfold State.extract
  rw [hcfg, hbuf]
  split
  case h_1 | h_6 => exact h.respond _
  case h_2 | h_3 | h_4 | h_5 => exact h.raise _
  case h_7 => exact h.judge _

/-- The search makes the same discards, and answers nothing. -/
theorem SameInputs.search : SameInputs s.search s'.search := by
  obtain ⟨hcfg, hbuf, hctrl, hlatch⟩ := id h
  unfold State.search
  rw [hctrl, hcfg, hbuf]
  split
  · simp [SameInputs, hcfg, hbuf, hctrl, hlatch]
  · exact h

theorem SameInputs.tryExtract : ∃ t t', exec .tryExtract s = .next t ∧ exec .tryExtract s' = .next t' ∧ SameAnswer s s' t t' := by
  obtain ⟨-, -, -, hv, hc, hd⟩ := id h
  cases hlatched : s.errValid with
  | true =>
    refine ⟨_, _, exec_tryExtract_latched hlatched, exec_tryExtract_latched (hv.trans hlatched), ?_⟩
    rw [hc, hd]
    exact h.respond _
  | false =>
    refine ⟨_, _, exec_tryExtract_unlatched hlatched, exec_tryExtract_unlatched (hv.trans hlatched), ?_⟩
    obtain ⟨r, hr, hr', hsame⟩ := h.search.extract
    exact ⟨r, by simpa using hr, by simpa using hr', hsame⟩

end

/-! ### Bytes behind the buffer -/

/-- `s` with the bytes `R` behind its buffer. -/
def State.behind (s : State) (R : List Byte) : State := { s with buf := s.buf ++ R }

section
variable {s t : State} (R : List Byte)

@[simp] theorem State.behind_cfg : (s.behind R).cfg = s.cfg := rfl
@[simp] theorem State.behind_buf : (s.behind R).buf = s.buf ++ R := rfl
@[simp] theorem State.behind_ctrl : (s.behind R).ctrl = s.ctrl := rfl
@[simp] theorem State.behind_errValid : (s.behind R).errValid = s.errValid := rfl

theorem State.raise_behind (e : FrameError) : (s.behind R).raise e = (s.raise e).behind R := rfl

theorem State.emit_behind {total : Nat} (h : total ≤ s.buf.length) (df : DecodedFrame) :
    (s.behind R).emit total df = (s.emit total df).behind R := by
  simp [State.emit, State.behind, List.drop_append_of_le_length h]

theorem State.discardBytes_behind {n : Nat} (h : n ≤ s.buf.length) :
    (s.behind R).discardBytes n = (s.discardBytes n).behind R := by
  simp [State.discardBytes_eq, withDiscards, State.behind, List.drop_append_of_le_length h]

theorem State.decodeFrame_behind (func : FuncCode) {fr : RxFrame} (h : rxTotal fr ≤ s.buf.length) :
    (s.behind R).decodeFrame func fr = (s.decodeFrame func fr).behind R := by
  by_cases hpass : crc16 s.cfg (coverage s.ctrl func fr) = fr.crc ∨ flagPolicy s.ctrl = true
  · rw [State.decodeFrame_of_crc_passed (s := s) rfl hpass, State.decodeFrame_of_crc_passed (s := s.behind R) rfl hpass,
      behind_ctrl]
    cases parseData s.ctrl func fr.data with
    | none => rfl
    | some p => exact State.emit_behind R h _
  · obtain ⟨hne, hp⟩ := not_or.1 hpass
    rw [Bool.not_eq_true] at hp
    rw [State.decodeFrame_mismatch (s := s) rfl hne hp, State.decodeFrame_mismatch (s := s.behind R) rfl hne hp]
    rfl

theorem State.judge_behind {F : List Byte} (h23 : 23 ≤ F.length) (hF : F.length ≤ s.buf.length) :
    (s.behind R).judge F = (s.judge F).behind R := by
  unfold State.judge
  simp only [behind_cfg]
  split
  · rfl
  · cases funcOfByte (byteAt F 20) with
    | none => rfl
    | some func => exact State.decodeFrame_behind R func (by rwa [rxTotal_rxFields _ _ h23])

/-- A frame that is all there is judged by its own bytes (42_header_splitter.md rule R147). -/
theorem State.extract_behind {total : Nat} (h : headerParse s.cfg s.buf = .complete total) :
    (s.behind R).extract = s.extract.behind R := by
  have happend := headerParse_append_complete s.cfg s.buf R total h
  obtain ⟨-, -, -, -, h23, -, hle⟩ := (headerParse_complete_iff ..).1 h
  have hlen : (slice s.buf 0 total).length = total := by rw [slice_length]; omega
  unfold State.extract
  simp only [behind_cfg, behind_buf, h, happend]
  rw [slice_append_left _ _ _ _ hle]
  exact State.judge_behind R (by omega) (by omega)

/-- A search that stops at a complete frame stops there whatever is behind it. -/
theorem State.search_behind {n total : Nat} (hn : Discards s n) (h : headerParse s.cfg (s.buf.drop n) = .complete total) :
    (s.behind R).search = s.search.behind R := by
  obtain ⟨h8, -⟩ := (headerParse_complete_iff ..).1 h
  rw [List.length_drop] at h8
  cases hscan : scanMode s.ctrl with
  | true =>
    have hjunk := hn.scan hscan
    have hsearch : (s.behind R).search = (s.behind R).discardBytes (junkLength s.cfg (s.buf ++ R)) := if_pos hscan
    rw [hsearch, junkLength_append s.cfg s.buf R (by omega), State.search, if_pos hscan]
    exact State.discardBytes_behind (s := s) R (by omega)
  | false => rw [State.search_of_terminate s hscan, State.search_of_terminate (s.behind R) hscan]

theorem exec_tryExtract_behind {df : DecodedFrame} (h : exec .tryExtract s = .next t)
    (hframe : t.responses = .frame df :: s.responses) : exec .tryExtract (s.behind R) = .next (t.behind R) := by
  obtain ⟨-, rfl⟩ | ⟨hv, n, hle, hterm, hscan, hsearch, rfl | ⟨e, rfl⟩ | ⟨total, -, -, -, -, -, hparse, -⟩⟩ :=
    exec_tryExtract_cases h
  · simp at hframe
  · simp at hframe
  · simp at hframe
  · rw [exec_tryExtract_unlatched hv] at h
    cases h
    rw [exec_tryExtract_unlatched (s := s.behind R) hv, State.search_behind R ⟨hle, hterm, hscan⟩ hparse,
      State.extract_behind R (s := s.search) (total := total) (by simpa [hsearch] using hparse)]

end

/-- Settles O47: the same response, and agreement on the inputs again, step by step of the command. -/
theorem tryExtractReadsOnlyItsInputs : Obligations.TryExtractReadsOnlyItsInputs := by
  intro s s' h
  obtain ⟨t, t', ht, ht', r, hr, hr', hsame⟩ := h.tryExtract
  exact ⟨t, t', r, ht, ht', hr, hr', hsame⟩

/-- Settles O48: with the frame all there, the search and the pass behind it go on as without `R`. -/
theorem bytesBehindTheFrameAreNotRead : Obligations.BytesBehindTheFrameAreNotRead :=
  fun _ _ _ R => exec_tryExtract_behind R

end Sys2Proof.Machine
end

section
/-! PROOFS. Valid frames in the buffer (43_decoder.md rules R189, R190, R194, R195): a frame at the head is emitted whatever is
behind it, part of one asks for more, and one changed byte is an error. -/

namespace Sys2Proof.Machine

/-! ### Bytes behind a header, and one byte changed -/

section
variable {V R : List Byte}

theorem GoodHeader.append_iff (h8 : 8 ≤ V.length) : GoodHeader (V ++ R) ↔ GoodHeader V := by
  rw [GoodHeader, GoodHeader, slice_append_left V R 0 4 (by omega), slice_append_left V R 6 8 h8, List.length_append]
  simp only [h8, true_and, and_iff_right_iff_imp]
  omega

theorem declaredTotal_append (h8 : 8 ≤ V.length) : declaredTotal (V ++ R) = declaredTotal V := totalLength_append_left V R h8

variable {k : Nat} {v : Byte}

theorem byteAt_set_same (hk : k < V.length) : byteAt (V.set k v) k = v := by
  simp [byteAt, List.getD_eq_getElem?_getD, hk]

theorem byteAt_set_other {i : Nat} (hi : i ≠ k) : byteAt (V.set k v) i = byteAt V i := by
  simp [byteAt, List.getD_eq_getElem?_getD, List.getElem?_set_ne hi.symm]

theorem slice_set_of_ge {i : Nat} (j : Nat) (h : i ≤ k) : slice (V.set k v) i j = (slice V i j).set (k - i) v := by
  unfold slice
  rw [List.drop_set, if_neg (by omega), List.take_set]

theorem slice_set_of_lt {i : Nat} (j : Nat) (h : k < i) : slice (V.set k v) i j = slice V i j := by
  unfold slice
  rw [List.drop_set_of_lt h]

/-- A byte behind a slice is not in it. -/
theorem slice_set_behind {i j : Nat} (h : j ≤ k) : slice (V.set k v) i j = slice V i j := by
  rcases Nat.lt_or_ge k i with hlt | hge
  · exact slice_set_of_lt j hlt
  · rw [slice_set_of_ge j hge, List.set_eq_of_length_le (by rw [slice_length]; omega)]

/-- A changed byte of a slice changes the slice. -/
theorem slice_set_ne {i j : Nat} (hi : i ≤ k) (hj : k < j) (hk : k < V.length) (hv : v ≠ byteAt V k) :
    slice (V.set k v) i j ≠ slice V i j := by
  intro heq
  have hbyte := congrArg (fun B => byteAt B (k - i)) heq
  simp only [byteAt_slice _ i j (k - i) (by omega), show i + (k - i) = k by omega, byteAt_set_same hk] at hbyte
  exact hv hbyte

/-- A byte behind the eight header bytes is not in the header. -/
theorem goodHeader_set_iff (h : 8 ≤ k) : GoodHeader (V.set k v) ↔ GoodHeader V := by
  rw [GoodHeader, GoodHeader, slice_set_behind (by omega), slice_set_behind h, List.length_set]

theorem declaredTotal_set (h : 8 ≤ k) : declaredTotal (V.set k v) = declaredTotal V := by
  rw [declaredTotal, declaredTotal, be16, be16, byteAt_set_other (by omega), byteAt_set_other (by omega)]

end

/-! ### A valid frame at the head of the buffer -/

section
variable {s : State} {V R : List Byte}

theorem ValidFrame.candidate (h : ValidFrame s.cfg s.ctrl V) (hv : s.errValid = false) (hbuf : s.buf = V ++ R) :
    Candidate s V := by
  have h8 := h.header.1
  have htotal : declaredTotal s.buf = V.length := by rw [hbuf, declaredTotal_append h8, h.total]
  refine ⟨hv, hbuf ▸ (GoodHeader.append_iff h8).2 h.header, ?_, ?_, ?_, ?_⟩
  · rw [htotal]; exact h.total_ge
  · rw [htotal]; exact h.total_le
  · rw [htotal, hbuf, List.length_append]; omega
  · rw [htotal, hbuf, List.take_left]

theorem ValidFrame.exec_frame (h : ValidFrame s.cfg s.ctrl V) (hv : s.errValid = false) (hbuf : s.buf = V ++ R) :
    exec .tryExtract s = .next (withFrame s V.length (frameRecord s.cfg s.ctrl V)) :=
  (h.candidate hv hbuf).exec_frame h.addr h.func h.crc h.layout

/-- The bytes of a valid frame fit the buffer (00_scope.md rule R9). -/
theorem ValidFrame.length_le_bufCap {cfg : Config} {ctrl : Word32} (h : ValidFrame cfg ctrl V) : V.length ≤ cfg.bufCap :=
  h.total_le.trans cfg.bounds.2.2.2.1

/-- A part of a valid frame asks for the rest. -/
theorem ValidFrame.exec_part {A B : List Byte} (h : ValidFrame s.cfg s.ctrl (A ++ B)) (hB : B ≠ []) (hv : s.errValid = false)
    (hbuf : s.buf = A) : exec .tryExtract s = .next (answered s .needMore) := by
  subst hbuf
  have hpos := List.length_pos_of_ne_nil hB
  have hge := h.total_ge
  have hle := h.total_le
  have htotal := h.total
  rcases Nat.lt_or_ge s.buf.length 8 with hshort | h8
  · exact exec_tryExtract_short hv hshort
  · rw [declaredTotal_append h8] at htotal
    rw [List.length_append] at htotal hge hle
    exact exec_tryExtract_incomplete hv ((GoodHeader.append_iff h8).1 h.header) (by omega) (by omega) (by omega)

/-! ### Runs and DRAIN -/

/-- `s` after the bytes were fed with room for them all. -/
def State.fed (s : State) (bytes : List Byte) : State :=
  { s with buf := s.buf ++ bytes, responses := List.replicate bytes.length .ack ++ s.responses }

@[simp] theorem State.fed_cfg (bytes : List Byte) : (s.fed bytes).cfg = s.cfg := rfl
@[simp] theorem State.fed_buf (bytes : List Byte) : (s.fed bytes).buf = s.buf ++ bytes := rfl
@[simp] theorem State.fed_ctrl (bytes : List Byte) : (s.fed bytes).ctrl = s.ctrl := rfl
@[simp] theorem State.fed_errValid (bytes : List Byte) : (s.fed bytes).errValid = s.errValid := rfl

theorem runInstrs_feeds_append (bytes : List Byte) (is : List Instr) (h : s.buf.length + bytes.length ≤ s.cfg.bufCap) :
    runInstrs (feeds bytes ++ is) s = runInstrs is (s.fed bytes) :=
  runInstrs_append _ is s _ (runInstrs_feeds bytes s h)

theorem drain_frame {total : Nat} {df : DecodedFrame} (n : Nat) (h : exec .tryExtract s = .next (withFrame s total df)) :
    drain (n + 1) s = drain n (withFrame s total df) := by
  simp [drain, h, State.gotFrame, withFrame]

theorem drain_end {t : State} (n : Nat) (h : exec .tryExtract s = .next t) (hend : t.gotFrame = false) :
    drain (n + 1) s = .next t := by
  simp [drain, h, hend]

end

/-- Settles O49: the part asks for the rest and changes nothing, so behind the second read the buffer is the frame. -/
theorem splitFramesDecodeOnce : Obligations.SplitFramesDecodeOnce := by
  rintro s V A B hv hbuf h rfl hB
  have hcap : A.length + B.length ≤ s.cfg.bufCap := List.length_append ▸ h.length_le_bufCap
  have hpart : exec .tryExtract (s.fed A) = .next (answered (s.fed A) .needMore) :=
    ValidFrame.exec_part (s := s.fed A) h hB hv (by simp [hbuf])
  have hframe := ValidFrame.exec_frame (s := (answered (s.fed A) .needMore).fed B) (R := []) h hv (by simp [answered, hbuf])
  rw [List.append_assoc, List.append_assoc, runInstrs_feeds_append A _ (by rw [hbuf, List.length_nil]; omega),
    List.singleton_append, runInstrs_cons hpart,
    runInstrs_feeds_append B _ (by simpa [answered, hbuf] using hcap), runInstrs_cons hframe]
  simp [runInstrs, withFrame, answered, State.fed, hbuf]

/-- Settles O50: two emissions, each of the frame at the head, and the empty buffer behind them; the bound is at least 3. -/
theorem twoFramesDecodeInOrder : Obligations.TwoFramesDecodeInOrder := by
  intro s V W hv hbuf hV hW hcap
  refine ⟨s.fed (V ++ W), runInstrs_feeds (V ++ W) s (by simpa [hbuf] using hcap), by simp [hbuf], ?_⟩
  obtain ⟨n, hn⟩ : ∃ n, drainBound (s.fed (V ++ W)) = n + 3 := by
    have hV23 := hV.total_ge
    have hW23 := hW.total_ge
    refine ⟨(V.length + W.length) / 23 - 2, ?_⟩
    simp only [drainBound, State.fed_buf, hbuf, List.nil_append, List.length_append]
    omega
  let u₁ := withFrame (s.fed (V ++ W)) V.length (frameRecord s.cfg s.ctrl V)
  let u₂ := withFrame u₁ W.length (frameRecord s.cfg s.ctrl W)
  have hfirst : exec .tryExtract (s.fed (V ++ W)) = .next u₁ := ValidFrame.exec_frame (R := W) hV hv (by simp [hbuf])
  have hsecond : exec .tryExtract u₁ = .next u₂ := ValidFrame.exec_frame (s := u₁) (R := []) hW hv (by simp [u₁, withFrame, hbuf])
  have hempty := exec_tryExtract_short (s := u₂) hv (by simp [u₂, u₁, withFrame, hbuf])
  rw [hn, drain_frame _ hfirst, drain_frame _ hsecond, drain_end _ hempty rfl]
  simp [u₂, u₁, answered, withFrame, State.fed, hbuf, BitVec.add_assoc]

/-- Settles O51: the changed byte is in one of the sentinels, and the other keeps its bytes. -/
theorem changedSentinelByteIsBadHeader : Obligations.ChangedSentinelByteIsBadHeader := by
  intro s V k v hv hterm h hbuf hne
  obtain ⟨h8, h1, h2⟩ := h.header
  have h8' : 8 ≤ s.buf.length := by rw [hbuf, List.length_set]; exact h8
  refine ⟨fun hk => exec_tryExtract_badH1 hv hterm h8' ?_, fun hk => exec_tryExtract_badH2 hv hterm h8' ?_ ?_⟩
  · rw [hbuf, ← h1]
    exact slice_set_ne (by omega) hk (by omega) hne
  · rw [hbuf, ← h1]
    exact slice_set_behind (by omega)
  · rw [hbuf, ← h2]
    exact slice_set_ne (by omega) (by omega) (by omega) hne

/-! ### One byte changed behind the header -/

section
variable {cfg : Config} {ctrl : Word32} {V : List Byte} {k : Nat} {v : Byte}

/-- Where the covered bytes begin (40_crc16.md rule R105). -/
def coverageStart (ctrl : Word32) : Nat := if funcDataScope ctrl then 20 else 8

theorem coveredBytes_eq_slice (F : List Byte) : coveredBytes ctrl F = slice F (coverageStart ctrl) (F.length - 2) := by
  unfold coveredBytes coverageStart
  split <;> rfl

theorem rcrc_inj {order : ByteOrder} {F G : List Byte} {i : Nat} (h : rcrc order F i = rcrc order G i) :
    byteAt F i = byteAt G i ∧ byteAt F (i + 1) = byteAt G (i + 1) := by
  have happend : ∀ {a b c d : Byte}, (a ++ b : Half) = c ++ d → a = c ∧ b = d := by
    intro a b c d heq
    have hlo := congrArg (BitVec.extractLsb' 0 8) heq
    have hhi := congrArg (BitVec.extractLsb' 8 8) heq
    rw [BitVec.extractLsb'_append_eq_right, BitVec.extractLsb'_append_eq_right] at hlo
    rw [BitVec.extractLsb'_append_eq_left, BitVec.extractLsb'_append_eq_left] at hhi
    exact ⟨hhi, hlo⟩
  cases order with
  | be => exact happend h
  | le => exact (happend h).symm

/-- A changed byte of the covered region changes the computed CRC alone, one of the CRC field the received CRC alone. -/
theorem frameCrc_set_ne_field (hpoly : cfg.crcPoly.getLsbD 0 = true) (h23 : 23 ≤ V.length)
    (hcrc : frameCrc cfg ctrl V = frameCrcField cfg V) (hv : v ≠ byteAt V k) (hstart : coverageStart ctrl ≤ k)
    (hk : k < V.length) : frameCrc cfg ctrl (V.set k v) ≠ frameCrcField cfg (V.set k v) := by
  rw [frameCrc, frameCrcField, coveredBytes_eq_slice, List.length_set]
  rw [frameCrc, frameCrcField, coveredBytes_eq_slice] at hcrc
  rcases Nat.lt_or_ge k (V.length - 2) with hcov | hfield
  · have hsame : rcrc cfg.crcWireOrder (V.set k v) (V.length - 2) = rcrc cfg.crcWireOrder V (V.length - 2) := by
      simp only [rcrc, byteAt_set_other (show V.length - 2 ≠ k by omega),
        byteAt_set_other (show V.length - 2 + 1 ≠ k by omega)]
    rw [hsame, ← hcrc, slice_set_of_ge _ hstart]
    refine crc16_set_ne hpoly ?_ ?_
    · rw [slice_length]; omega
    · rwa [byteAt_slice _ _ _ _ (by omega), show coverageStart ctrl + (k - coverageStart ctrl) = k by omega]
  · rw [slice_set_behind hfield, hcrc]
    intro heq
    obtain ⟨hlo, hhi⟩ := rcrc_inj heq
    obtain rfl | rfl : k = V.length - 2 ∨ k = V.length - 2 + 1 := by omega
    · exact hv (by rw [hlo, byteAt_set_same hk])
    · exact hv (by rw [hhi, byteAt_set_same hk])

end

/-- Settles O52: the frame with the changed byte is still a candidate, so the first of the address, the function code and the CRC
that the byte spoils is reported. -/
theorem changedCoveredByteIsDetected : Obligations.ChangedCoveredByteIsDetected := by
  intro s V k v hv hstrict hpoly h hbuf hne hstart hk
  have hstart : coverageStart s.ctrl ≤ k := hstart
  have h8 : 8 ≤ k := by
    unfold coverageStart at hstart
    split at hstart <;> omega
  have hdecl : declaredTotal s.buf = V.length := by rw [hbuf, declaredTotal_set h8, h.total]
  have hcand : Candidate s (V.set k v) := by
    refine ⟨hv, hbuf ▸ (goodHeader_set_iff h8).2 h.header, ?_, ?_, ?_, ?_⟩
    · rw [hdecl]; exact h.total_ge
    · rw [hdecl]; exact h.total_le
    · rw [hdecl, hbuf, List.length_set]
    · rw [hdecl, hbuf, List.take_of_length_le (by simp)]
  by_cases h19 : k = 19
  · subst h19
    rw [if_pos rfl]
    refine hcand.exec_wrongAddr ?_
    rw [byteAt_set_same hk, ← h.addr]
    exact hne
  have haddr : byteAt (V.set k v) 19 = 0x32 := by rw [byteAt_set_other (Ne.symm h19), h.addr]
  rw [if_neg h19]
  split_ifs with hfunc
  · obtain ⟨rfl, hunknown⟩ := hfunc
    exact hcand.exec_unknownFunc haddr (by rwa [byteAt_set_same hk])
  · have hknown : KnownFunc (byteAt (V.set k v) 20) := by
      by_cases h20 : k = 20
      · subst h20
        rw [byteAt_set_same hk]
        exact not_not.1 fun hunknown => hfunc ⟨rfl, hunknown⟩
      · rw [byteAt_set_other (Ne.symm h20)]
        exact h.func
    have hcrc : frameCrc s.cfg s.ctrl V = frameCrcField s.cfg V := h.crc.resolve_right (ne_true_of_eq_false hstrict)
    exact hcand.exec_mismatch haddr hknown (frameCrc_set_ne_field hpoly h.total_ge hcrc hne hstart hk) hstrict

end Sys2Proof.Machine
end

section
/-! PROOFS. Progress (30_encoding.md rule R87, 70_reset_and_hazards.md rules R261, R272): DRAIN ends within its bound, a full
buffer is never left as it is without an error, and the block is ready at once after power-on reset. -/

namespace Sys2Proof.Machine

section
variable {s t : State}

/-! ### DRAIN -/

/-- A frame takes at least 23 bytes from the buffer. -/
theorem gotFrame_shrinks (h : exec .tryExtract s = .next t) (hframe : t.gotFrame = true) :
    t.buf.length + 23 ≤ s.buf.length := by
  cases exec_effect h with
  | answer _ _ hx => exact absurd (.inl rfl) hx
  | repeatError | needMore | raise => simp [State.gotFrame] at hframe
  | emit _ _ _ htotal hbuf =>
    simp only [State.emit_buf, State.discardBytes_buf, List.length_drop]
    omega

theorem drain_ends (n : Nat) (s : State) (hn : s.buf.length < 23 * n) : ∃ t, drain n s = .next t ∧ t.gotFrame = false := by
  induction n generalizing s with
  | zero => omega
  | succ n ih =>
    obtain ⟨t, ht⟩ := exec_completes .tryExtract s
    cases hframe : t.gotFrame with
    | false => exact ⟨t, drain_end n ht hframe, hframe⟩
    | true =>
      have hshrinks := gotFrame_shrinks ht hframe
      have hstep : drain (n + 1) s = drain n t := by simp [drain, ht, hframe]
      rw [hstep]
      exact ih t (by omega)

/-! ### A full buffer -/

theorem headerParse_incomplete {cfg : Config} {B : List Byte} {n : Nat} (h : headerParse cfg B = .incomplete n) :
    B.length < cfg.maxFrameLen := by
  unfold headerParse at h
  split_ifs at h
  omega

theorem State.judge_responses_ne_needMore (F : List Byte) : (s.judge F).responses ≠ .needMore :: s.responses := by
  obtain ⟨e, h⟩ | ⟨func, -, -, h⟩ := s.judge_cases F
  · simp [h]
  · obtain ⟨e, h'⟩ | ⟨p, -, h'⟩ := s.decodeFrame_cases func (rxFields s.cfg.crcWireOrder F)
    · simp [h, h']
    · simp [h, h']

/-- One pass asks for more only where the buffer has room for a longest frame. -/
theorem State.length_lt_of_extract_needMore (h : s.extract.responses = .needMore :: s.responses) :
    s.buf.length < s.cfg.maxFrameLen := by
  obtain ⟨-, -, hmax, -⟩ := s.cfg.bounds
  unfold State.extract at h
  split at h
  case h_1 hclass =>
    have := (headerParse_short_iff ..).1 hclass
    omega
  case h_2 | h_3 | h_4 | h_5 => simp at h
  case h_6 hclass => exact headerParse_incomplete hclass
  case h_7 => exact absurd h (State.judge_responses_ne_needMore _)

theorem Discards.search_eq {n : Nat} (h : Discards s n) : s.search = s.discardBytes n := by
  cases hscan : scanMode s.ctrl with
  | true => rw [State.search, if_pos hscan, h.scan hscan]
  | false =>
    rw [State.search_of_terminate s hscan, h.terminate hscan]
    rfl

theorem fullBuffer_progress (hv : s.errValid = false) (hfull : s.buf.length = s.cfg.bufCap) (h : exec .tryExtract s = .next t) :
    t.errValid = true ∨ t.buf.length < s.buf.length := by
  obtain ⟨-, -, hmax, hcap, -⟩ := s.cfg.bounds
  cases exec_effect h with
  | answer _ _ hx => exact absurd (.inl rfl) hx
  | repeatError _ hlatched => simp [hv] at hlatched
  | raise => exact .inl rfl
  | emit _ _ _ htotal hbuf =>
    refine .inr ?_
    simp only [State.emit_buf, State.discardBytes_buf, List.length_drop]
    omega
  | @needMore _ n _ _ hn =>
    refine .inr ?_
    by_cases h0 : n = 0
    · subst h0
      rw [exec_tryExtract_unlatched hv, hn.search_eq, Host.Outcome.next.injEq] at h
      have hroom := State.length_lt_of_extract_needMore (s := s) (congrArg State.responses h)
      omega
    · simp only [State.respond_buf, State.discardBytes_buf, List.length_drop]
      omega

end

/-- Settles O55: with `n` frames still allowed the buffer holds fewer than `23 * n` bytes. -/
theorem drainEndsWithinItsBound : Obligations.DrainEndsWithinItsBound := by
  intro s
  refine drain_ends _ s ?_
  rw [drainBound]
  omega

/-- Settles O53: a full buffer has a byte to discard, an error to raise or a frame to emit. -/
theorem fullBufferMakesProgress : Obligations.FullBufferMakesProgress := by
  intro s hv hfull
  obtain ⟨t, ht⟩ := exec_completes .tryExtract s
  exact ⟨t, ht, fullBuffer_progress hv hfull ht⟩

/-- Settles O4: the buffer is empty and no error is latched, so TRY_EXTRACT finds less than a header, FEED has room for `BUF_CAP`
bytes, and ENCODE's answer does not depend on the state. -/
theorem readyAtOnceAfterPowerOn : Obligations.ReadyAtOnceAfterPowerOn := by
  intro s
  refine ⟨exec_tryExtract_short rfl (by simp), fun func base arg hlegal => ?_, fun bytes hlen => ?_⟩
  · obtain rfl | ⟨hread, h0, hcount, hspan⟩ := hlegal
    · exact ⟨_, rfl⟩
    · refine ⟨requestFrame s.cfg func base arg, ?_⟩
      rw [exec_encode, State.powerOn_cfg, encodeRequest_read _ _ _ hread, if_neg h0, if_neg (by omega), if_neg (by omega)]
  · refine ⟨s.powerOn.fed bytes, runInstrs_feeds bytes s.powerOn (by simp [hlen]), by simp, rfl, fun b => ?_⟩
    exact exec_feed_full b (by simpa using hlen)

end Sys2Proof.Machine
end

section
/-! PROOFS. The loopback round trip (43_decoder.md rule R193): a request is the received frame of its operands, and its CRC is the
one the decoder computes under `FUNC_DATA`, and never under `FULL_INNER` with the default parameters. -/

namespace Sys2Proof.Machine

/-- The fields the decoder reads from a request. -/
def loopbackFields (cfg : Config) (func : FuncCode) (base arg : Half) : RxFrame :=
  ⟨protocol.txSerial, cfg.txPad, w16 base ++ w16 arg, crc16 cfg (requestCoverage (funcByte func) base arg)⟩

section
variable {s : State} {cfg : Config} {ctrl : Word32} {func : FuncCode} {base arg : Half}

theorem loopbackFields_wf (cfg : Config) (func : FuncCode) (base arg : Half) : (loopbackFields cfg func base arg).wf cfg = true :=
  RxFrame.wf_iff.2 ⟨rfl, cfg.bounds.2.2.1⟩

/-- The four data bytes of a request are its operands in every function code's layout. -/
theorem parseData_loopback (hv : valuesOnly ctrl = false) :
    parseData ctrl func (w16 base ++ w16 arg) = some ⟨some base, arg, []⟩ := by
  have hbase : be16 (w16 base ++ w16 arg) 0 = base := be16_w16 base _
  have harg : be16 (w16 base ++ w16 arg) 2 = arg := by
    rw [be16_append_right _ _ _ (by simp)]
    simpa using be16_w16 arg []
  by_cases hw : func = .writeSingle
  · subst hw
    rw [parseData, parseWrite_four rfl, hbase, harg]
  · rw [parseData_of_read hw, parseRead_baseCountValues hv (by simp) (by simp), hbase, harg]
    simp

/-- Under `FUNC_DATA` the decoder covers the five bytes the request's CRC covers (40_crc16.md rules R104, R105). -/
theorem coverage_loopback_funcData (h : funcDataScope ctrl = true) :
    coverage ctrl func (loopbackFields cfg func base arg) = requestCoverage (funcByte func) base arg := by
  simp [coverage, h, funcDataCoverage, loopbackFields, requestCoverage]

theorem coverage_loopback_fullInner (h : funcDataScope ctrl = false) :
    coverage ctrl func (loopbackFields cfg func base arg) =
      (protocol.txSerial ++ [cfg.txPad, protocol.slaveAddr]) ++ requestCoverage (funcByte func) base arg := by
  simp [coverage, h, fullInnerCoverage, loopbackFields, requestCoverage]

/-- With the default parameters the twelve bytes before the function code leave the register different from its start, and the
same bytes behind them keep it so. -/
theorem crc16_serial_append_ne (B : List Byte) :
    crc16 Config.default ((protocol.txSerial ++ [Config.default.txPad, protocol.slaveAddr]) ++ B) ≠ crc16 Config.default B := by
  rw [ne_eq, crc16_eq_iff, List.foldl_append]
  intro heq
  exact absurd (foldl_crcByte_injective (cfg := Config.default) (by decide) B heq) (by decide +kernel)

/-- The request's bytes, fed to an empty buffer, stand at its head as a received frame. -/
theorem exec_tryExtract_loopback (hv : s.errValid = false) (hbuf : s.buf = []) :
    exec .tryExtract (s.fed (requestFrame s.cfg (funcByte func) base arg)) =
      .next ((s.fed (requestFrame s.cfg (funcByte func) base arg)).decodeFrame func (loopbackFields s.cfg func base arg)) := by
  refine exec_tryExtract_of_atHead hv (loopbackFields_wf s.cfg func base arg) ?_
  rw [State.fed_buf, hbuf, List.nil_append, requestFrame_eq_receivedFrame]
  exact List.prefix_rfl

theorem runInstrs_loopback (hv : s.errValid = false) (hbuf : s.buf = []) :
    runInstrs (feeds (requestFrame s.cfg (funcByte func) base arg) ++ [.tryExtract]) s =
      .next ((s.fed (requestFrame s.cfg (funcByte func) base arg)).decodeFrame func (loopbackFields s.cfg func base arg)) := by
  obtain ⟨-, -, hmax, hcap, -⟩ := s.cfg.bounds
  rw [runInstrs_feeds_append _ _ (by rw [hbuf, requestFrame_length, List.length_nil]; omega),
    runInstrs_cons (exec_tryExtract_loopback hv hbuf)]
  rfl

end

/-- Settles O54: behind the feed TRY_EXTRACT is steps 5 to 7 on the request's own fields; the CRC step passes under `FUNC_DATA`,
and with the defaults fails under `FULL_INNER` and `STRICT`. -/
theorem loopbackRecoversTheRequest : Obligations.LoopbackRecoversTheRequest := by
  intro s t func base arg F h hF hv hbuf
  cases h
  obtain ⟨code, rfl, hok⟩ | ⟨d, hd⟩ := encodeRequest_cases s.cfg func base arg
  · obtain rfl : requestFrame s.cfg (funcByte code) base arg = F := by simpa [hok] using hF
    rw [runInstrs_loopback hv hbuf]
    refine ⟨fun hscope hlayout => ?_, fun hcfg hstrict hscope => ?_⟩
    · have hcrc : (loopbackFields s.cfg code base arg).crc =
          crc16 s.cfg (coverage s.ctrl code (loopbackFields s.cfg code base arg)) := by
        rw [coverage_loopback_funcData hscope]
        rfl
      rw [State.decodeFrame_parsed (s := s.fed _) hcrc (.inl rfl) (parseData_loopback hlayout)]
      refine ⟨_, _, rfl, rfl, ?_, rfl, rfl, rfl, rfl, by simp [decodedFrame]⟩
      simp [withFrame, hbuf, loopbackFields, requestFrame_length]
    · have hne : crc16 s.cfg (coverage s.ctrl code (loopbackFields s.cfg code base arg)) ≠
          (loopbackFields s.cfg code base arg).crc := by
        rw [coverage_loopback_fullInner hscope, hcfg]
        exact crc16_serial_append_ne _
      rw [State.decodeFrame_mismatch (s := s.fed _) rfl hne hstrict]
      exact ⟨_, rfl, rfl, by simp [withError, hbuf]⟩
  · simp [hd] at hF

end Sys2Proof.Machine
end
